-- ==== Sys2Proof/Word.lean ====
section
/-!
DEFINITION. The words of the block: bytes, tags, interrupt levels, command and response words
(spec/00_scope.md R6, R8; spec/30_encoding.md R55, R62). Bit 0 is the least significant bit of every word.
-/

namespace Sys2Proof

/-- A data byte: one slot of `RXMEM` or `TXMEM`, one transfer of the Register Interface (R40, R34). -/
abbrev Byte := BitVec 8

/-- A two-bit error field, bit 0 frame error, bit 1 overrun error (R20, R40). -/
abbrev ErrBits := BitVec 2

/-- An interrupt level, `LVLW` = 2 bits: 0 is off, 1 < 2 < 3 in priority (R6, R26). -/
abbrev Level := BitVec 2

/-- A baud rate in bits per second, as given to the block (R29). -/
abbrev Baud := BitVec 24

/-- The frame format register's five bits (R30). -/
abbrev FmtBits := BitVec 5

/-- A command word, `CMDW` = 32 bits (R6, R55). -/
abbrev CmdWord := BitVec 32

/-- A response word, `RSPW` = 16 bits (R6, R62). -/
abbrev RspWord := BitVec 16

/-- A grant code (R66). -/
abbrev GrantCode := BitVec 2

end Sys2Proof
end

