-- ==== Sys2Proof/Config.lean ====
section
/-!
DEFINITION. What an instance of the block fixes (the parameters of spec/00_scope.md R6, R7) and the free
values: what the spec leaves open and nothing here constrains (spec/93_implementation_defined.md ID1, ID12).
-/

namespace Sys2Proof

/-- The parameters of R6, before the constraints of R7. `LVLW`, `CMDW`, `RSPW` are fixed and are the widths
of Word.lean; `IDXW` is `log2 N`. -/
structure RawParams where
  /-- `N_RX`, slots of the receive buffer -/
  nRx : Nat
  /-- `N_TX`, slots of the transmit buffer -/
  nTx : Nat
  /-- `ATOMW`, the machine's atomic access width in bits -/
  atomW : Nat
  /-- `RXC_INIT_LVL`, the level at which `INIT` arms receive-complete -/
  rxcInitLvl : Level
  /-- `FC_EN`, flow control present -/
  fcEn : Bool
  /-- `LOW_WM`, in bytes of free receive space -/
  lowWm : Nat
  /-- `HIGH_WM`, in bytes of free receive space -/
  highWm : Nat
deriving DecidableEq, Repr

/-- `N` is a power of two, at least 2, and `IDXW = log2 N` is at most `ATOMW` (R7). -/
def sizeLegal (atomW n : Nat) : Bool := n == 2 ^ Nat.log2 n && 2 ≤ n && Nat.log2 n ≤ atomW

/-- The constraints of R6 and R7. The marks are constrained only when flow control is present. -/
def RawParams.legal (p : RawParams) : Bool :=
  sizeLegal p.atomW p.nRx && sizeLegal p.atomW p.nTx && p.rxcInitLvl != 0#2 &&
    (!p.fcEn || (p.lowWm < p.highWm && p.highWm ≤ p.nRx - 1))

/-- Parameters an instance can have: "a model refuses to be instantiated without" R7, so a value of this
type exists only where R7 holds. -/
structure Params extends RawParams where
  legal : toRawParams.legal = true
deriving DecidableEq, Repr

/-- The defaults of R6. DESIGN CHOICE (log 1): R6 leaves the marks open; 0 and 1 are the least legal pair, and
with `FC_EN` = 0 nothing reads them. -/
def Params.default : Params where
  nRx := 4
  nTx := 4
  atomW := 8
  rxcInitLvl := 1#2
  fcEn := false
  lowWm := 0
  highWm := 1
  legal := by decide

/-! ## Free values (log 5, log 6): opaque, so that no proof can see one -/

/-- What a slot of `RXMEM` reads as that nothing has written since reset (R39, 93 ID1), by draw. -/
opaque Config.freeRxByte : Nat → Byte
/-- What a slot of `RXTAG` reads as that nothing has written since reset (R39, 93 ID1), by draw. -/
opaque Config.freeRxTag : Nat → ErrBits
/-- What a slot of `TXMEM` reads as that nothing has written since reset (R39, 93 ID1), by draw. -/
opaque Config.freeTxByte : Nat → Byte
/-- `VAL` of `FREE` when the free space does not fit 8 bits (R62, R84), by draw. -/
opaque Config.freeWideCount : Nat → Byte

/-! ## The free environment (log 2): what FG, PERIPH and reset drive in a step no one has written down -/

/-- `rst` (R170: at any time, any number of times), by draw. -/
opaque Config.freeRst : Nat → Bool
/-- `cmd_valid` (R60), by draw. -/
opaque Config.freeCmdValid : Nat → Bool
/-- `cmd` (R59: any word), by draw. -/
opaque Config.freeCmdWord : Nat → CmdWord
/-- `ri_rxc_req` (R36; 93 ID13), by draw. -/
opaque Config.freeRxcReq : Nat → Bool
/-- `ri_rx_data` (R36: "a free draw of the environment"), by draw. -/
opaque Config.freeRxData : Nat → Byte
/-- `ri_fe` (R36), by draw. -/
opaque Config.freeFe : Nat → Bool
/-- `ri_dor` (R36), by draw. -/
opaque Config.freeDor : Nat → Bool
/-- `ri_dre_req` (R37: "when that happens is free"), by draw. -/
opaque Config.freeDreReq : Nat → Bool

end Sys2Proof
end

