-- ==== Sys2Proof/Syntax.lean ====
section
/-!
DEFINITION. The operations of the block, one constructor per row of spec/opcode_table.json: the thirteen
commands of spec/30_encoding.md R57 and the two handler events of R65, R66.
-/

namespace Sys2Proof

/-- Buffer selector `b`: `RX` (0) or `TX` (1) (R8, R56). -/
inductive Buf where
  | rx
  | tx
deriving DecidableEq, Repr

/-- One operation of the block. Every operand is an unsigned field taken straight from the command word
(R56). The two events have no operand: theirs are the Register Interface inputs of the step (R65). -/
inductive Instr where
  /-- `INIT lvl, baud` (R121) -/
  | init (lvl : Level) (baud : Baud)
  /-- `SEND byte` (R105) -/
  | send (byte : Byte)
  /-- `TRYRECV` (R95) -/
  | tryRecv
  /-- `HASIN` (R98) -/
  | hasIn
  /-- `HASOUT` (R110) -/
  | hasOut
  /-- `SETRXCLVL lvl` (R124) -/
  | setRxcLvl (lvl : Level)
  /-- `SETTXCLVL lvl` (R125) -/
  | setTxcLvl (lvl : Level)
  /-- `SETDRELVL lvl` (R126) -/
  | setDreLvl (lvl : Level)
  /-- `ISEMPTY b` (R82) -/
  | isEmpty (b : Buf)
  /-- `ISFULL b` (R83) -/
  | isFull (b : Buf)
  /-- `FREE b` (R84) -/
  | free (b : Buf)
  /-- `SETBAUD baud` (R133) -/
  | setBaud (baud : Baud)
  /-- `SETFMT fmt` (R134); `PMODE` = 1 is no instruction (R135, see WellFormed) -/
  | setFmt (fmt : FmtBits)
  /-- `RXC_EVENT`, the receive-complete handler event (R91) -/
  | rxcEvent
  /-- `DRE_EVENT`, the data-register-empty handler event (R107) -/
  | dreEvent
deriving DecidableEq, Repr

/-- The mnemonic, as spec/opcode_table.json and R72 spell it. -/
def Instr.mnemonic : Instr → String
  | .init _ _ => "INIT"
  | .send _ => "SEND"
  | .tryRecv => "TRYRECV"
  | .hasIn => "HASIN"
  | .hasOut => "HASOUT"
  | .setRxcLvl _ => "SETRXCLVL"
  | .setTxcLvl _ => "SETTXCLVL"
  | .setDreLvl _ => "SETDRELVL"
  | .isEmpty _ => "ISEMPTY"
  | .isFull _ => "ISFULL"
  | .free _ => "FREE"
  | .setBaud _ => "SETBAUD"
  | .setFmt _ => "SETFMT"
  | .rxcEvent => "RXC_EVENT"
  | .dreEvent => "DRE_EVENT"

end Sys2Proof
end

