-- ==== Sys2Proof/Machine/State.lean ====
section
/-!
DEFINITION. The state of one block instance (spec/10_state.md R13 to R39), its ports (R33, R34), the
observation traces (spec/00_scope.md R11), reset (spec/70_reset_and_hazards.md R170 to R172), and the ways a
step can stop (none).
-/

namespace Sys2Proof.Machine

/-! ## Input ports: what FG and PERIPH drive (R33, R34) -/

/-- `cmd_valid`, `cmd`. -/
structure CmdPort where
  valid : Bool
  word : CmdWord
deriving DecidableEq, Repr

/-- `ri_rxc_req`, `ri_rx_data`, `ri_fe`, `ri_dor`. -/
structure RxPort where
  req : Bool
  data : Byte
  fe : Bool
  dor : Bool
deriving DecidableEq, Repr

/-- All inputs: `rst`, the command port, the receive side and `ri_dre_req`. -/
structure Inputs where
  rst : Bool
  cmd : CmdPort
  rx : RxPort
  dreReq : Bool
deriving DecidableEq, Repr

/-- Nothing driven. -/
def Inputs.quiet : Inputs := ⟨false, ⟨false, 0#32⟩, ⟨false, 0#8, false, false⟩, false⟩

/-- What the environment changes between two steps (R10): `none` leaves a port as it is driven, `some v`
drives `v` from now on. Any value may be driven (93 ID2, ID13, ID14). -/
structure Frame where
  rst : Option Bool
  cmd : Option CmdPort
  rx : Option RxPort
  dreReq : Option Bool
deriving DecidableEq, Repr

/-- A frame that changes nothing. -/
def Frame.still : Frame := ⟨none, none, none, none⟩

/-- What the environment does after the frames of `State.script`, for ever (R167; log 2): PERIPH need not fall silent. -/
inductive Rest where
  /-- It repeats these frames, one a step, `f` in the next. -/
  | loop (f : Frame) (fs : List Frame)
  /-- It drives every input anew in every step, by the free values of Config. -/
  | free
deriving DecidableEq, Repr

/-- It holds the inputs as they are. -/
def Rest.still : Rest := .loop Frame.still []

/-! ## Output ports of the step just taken (R33, R34, R66) -/

/-- What a step performs (R66). -/
inductive Grant where
  | idle
  | fg
  | rxcEvent
  | dreEvent
deriving DecidableEq, Repr

/-- The pulses and words a step drives. The levels, `ri_baud`, `ri_fmt`, enables and `fc_paused` are functions
of the registers and have no field (R35). -/
structure Outputs where
  cmdReady : Bool
  rspValid : Bool
  rsp : RspWord
  grant : Grant
  fcPause : Bool
  fcResume : Bool
  riRxRd : Bool
  riTxWr : Bool
  /-- `ri_tx_data`: 0 from reset until the first write (R172), the byte written in a step that writes (R34), and
  `none` in a later step that writes nothing, where no rule states its value (log 7). -/
  riTxData : Option Byte
deriving DecidableEq, Repr

/-- The outputs in and after reset (R172). -/
def Outputs.reset : Outputs := ⟨false, false, 0#16, .idle, false, false, false, false, some 0#8⟩

/-! ## Observation (R11) -/

/-- A flow-control event (R104). -/
inductive FcEvent where
  | pause
  | resume
deriving DecidableEq, Repr

/-- The configuration values driven on the Register Interface (R34, R11). -/
structure RiCfg where
  rxcLvl : Level
  txcLvl : Level
  dreLvl : Level
  baud : Baud
  fmt : FmtBits
  rxEn : Bool
  txEn : Bool
deriving DecidableEq, Repr

/-- One entry of the observation log. -/
inductive Obs where
  /-- The mark of a hardware reset that R170 allows. -/
  | reset
  /-- An entry of `GRANT`. -/
  | grant (g : Grant)
  /-- An entry of `RSP`: the command word and its response word. -/
  | rsp (w : CmdWord) (r : RspWord)
  /-- An entry of `WIRE`. -/
  | wire (b : Byte)
  /-- An entry of `FC`. -/
  | fc (e : FcEvent)
  /-- An entry of `RICFG`. -/
  | riCfg (c : RiCfg)
  /-- The model's own (log 4): a successful push. -/
  | push (b : Buf) (v : Byte)
  /-- The model's own (log 4): a successful pop. -/
  | pop (b : Buf) (v : Byte)
deriving DecidableEq, Repr

/-! ## The state -/

/-- One storage space: the slots written since reset, by index (R40); an index not listed is a slot whose
content is unspecified (R39, log 5). -/
abbrev Memory (w : Nat) := List (Nat × BitVec w)

/-- The armed or disarmed state of the data-register-empty interrupt, "an explicit enum field" (R21, R185). -/
inductive DreState where
  | disarmed
  | armed
deriving DecidableEq, Repr

/-- The state of one instance, its ports, its environment and its traces. -/
structure State where
  /-- The instance's parameters (R6); no step writes them (log 1). -/
  params : Params
  /-- `INITED` (R23) -/
  inited : Bool
  /-- `head[RX]`, `tail[RX]`, `head[TX]`, `tail[TX]` (R14) -/
  headRx : Nat
  tailRx : Nat
  headTx : Nat
  tailTx : Nat
  /-- `RXMEM`, `RXTAG`, `TXMEM` (R40) -/
  rxMem : Memory 8
  rxTag : Memory 2
  txMem : Memory 8
  /-- `OVF` (R19) -/
  ovf : Bool
  /-- `PENDERR` (R20) -/
  penderr : ErrBits
  /-- `DRE_ARMED` (R21) -/
  dreArmed : DreState
  /-- `FC_PAUSED` (R22) -/
  fcPaused : Bool
  /-- `RXCLVL` (R26), `TXCLVL` (R27), `DRELVL` (R28) -/
  rxcLvl : Level
  txcLvl : Level
  dreLvl : Level
  /-- `BAUD` (R29), `FMT` (R30) -/
  baud : Baud
  fmt : FmtBits
  /-- `RXEN`, `TXEN` (R31) -/
  rxEn : Bool
  txEn : Bool
  /-- The input ports as driven now (R33, R34), the environment's (log 2). -/
  inp : Inputs
  /-- The environment's changes before each of the next steps (log 2). -/
  script : List Frame
  /-- What the environment does when those are taken (log 2). -/
  rest : Rest
  /-- The output ports of the step just taken. -/
  out : Outputs
  /-- The observation log, newest entry first (R11, log 4). -/
  log : List Obs
  /-- Steps taken: the free values are drawn by it (log 5). -/
  draws : Nat
deriving DecidableEq, Repr

/-- The state after reset of an instance with parameters `p` (R39, R171, R172). -/
def State.resetWith (p : Params) : State where
  params := p
  inited := false
  headRx := 0
  tailRx := 0
  headTx := 0
  tailTx := 0
  rxMem := []
  rxTag := []
  txMem := []
  ovf := false
  penderr := 0#2
  dreArmed := .disarmed
  fcPaused := false
  rxcLvl := 0#2
  txcLvl := 0#2
  dreLvl := 0#2
  baud := 0#24
  fmt := 0b00011#5
  rxEn := false
  txEn := false
  inp := .quiet
  script := []
  rest := .free
  out := .reset
  log := []
  draws := 0

/-- The state after reset with the default parameters of R6. -/
def State.reset : State := State.resetWith Params.default

/-! ## The ways a step can stop -/

/-- The block has no fault: "No condition in this driver is fatal or halts execution" (R9, R12, R140; 93
section 1). Nobody raises one, so the type is empty; safe. -/
inductive Fault : Type
deriving DecidableEq, Repr

/-- A refused COMMAND of the block is a response (R69) and a next state, never one of these. -/
inductive Refusal where
  /-- Raised by an arm of `exec` for an instruction that has no meaning yet; no arm does. Safe. -/
  | notModelled (mnemonic : String)
deriving DecidableEq, Repr

end Sys2Proof.Machine
end

