-- ==== Sys2Proof/Machine/Flags.lean ====
section
/-!
DEFINITION. The response word and its flags: StatusFlags, `OK`, the refusal codes (spec/30_encoding.md R62 to
R64; spec/42_receive_path.md R96; spec/60_exceptions.md R140 to R146).
-/

namespace Sys2Proof.Machine

/-- The fields of a response word (R62). -/
structure Rsp where
  err : Bool
  errc : BitVec 2
  ok : Bool
  nodata : Bool
  ovf : Bool
  ore : Bool
  fe : Bool
  val : Byte
deriving DecidableEq, Repr

/-- `ERR[15] ERRC[14:13] OK[12] NODATA[11] OVF[10] ORE[9] FE[8] VAL[7:0]` (R62). -/
def Rsp.word (r : Rsp) : RspWord :=
  BitVec.ofBool r.err ++ (r.errc ++ (BitVec.ofBool r.ok ++ (BitVec.ofBool r.nodata ++
    (BitVec.ofBool r.ovf ++ (BitVec.ofBool r.ore ++ (BitVec.ofBool r.fe ++ r.val))))))

/-- The fields of a response word, read at the positions of R62. -/
def Rsp.ofWord (w : RspWord) : Rsp where
  err := w.getLsbD 15
  errc := w.extractLsb' 13 2
  ok := w.getLsbD 12
  nodata := w.getLsbD 11
  ovf := w.getLsbD 10
  ore := w.getLsbD 9
  fe := w.getLsbD 8
  val := w.extractLsb' 0 8

/-- Every field 0 (R9: fields a `respond` does not name are 0). -/
def Rsp.zero : Rsp := ⟨false, 0#2, false, false, false, false, false, 0#8⟩

/-- `{OK = b}` -/
def Rsp.result (b : Bool) : Rsp := { Rsp.zero with ok := b }

/-- `{OK = 1}`, the response of a performed operation that has no result (R64). -/
def Rsp.done : Rsp := Rsp.result true

/-- `{OK = 1, VAL = v}` (R84). -/
def Rsp.value (v : Byte) : Rsp := { Rsp.done with val := v }

/-- The bitset StatusFlags, a value recomputed by each `TRYRECV` and never stored (R24, R96). -/
structure StatusFlags where
  fe : Bool
  ore : Bool
  ovf : Bool
  nodata : Bool
deriving DecidableEq, Repr

/-- StatusFlags of a `TRYRECV` that returns a byte with tag `t` = {ore, fe}; `o` is `OVF` before the step (R96). -/
def StatusFlags.ofTag (o : Bool) (t : ErrBits) : StatusFlags := ⟨t.getLsbD 0, t.getLsbD 1, o, false⟩

/-- StatusFlags of a `TRYRECV` that finds the buffer empty (R96). -/
def StatusFlags.ofEmpty (o : Bool) : StatusFlags := ⟨false, false, o, true⟩

/-- A `TRYRECV` response: `OK` is 1 exactly when `NODATA` is 0 (R64, R95). -/
def Rsp.received (f : StatusFlags) (v : Byte) : Rsp :=
  { Rsp.zero with ok := !f.nodata, nodata := f.nodata, ovf := f.ovf, ore := f.ore, fe := f.fe, val := v }

/-- The refusal codes of R63. -/
inductive RefusalCode where
  /-- the word is no command -/
  | illegal
  /-- a legal command other than `INIT` while `INITED` = 0 -/
  | notInit
  /-- a legal `INIT` while `INITED` = 1 -/
  | reInit
deriving DecidableEq, Repr

/-- `ERRC` (R63). -/
def RefusalCode.code : RefusalCode → BitVec 2
  | .illegal => 1#2
  | .notInit => 2#2
  | .reInit => 3#2

/-- `ERR(code)`: every other field 0 (R63, R69). -/
def Rsp.refusal (c : RefusalCode) : Rsp := { Rsp.zero with err := true, errc := c.code }

/-- The status register as sampled, `{dor, fe}` (R35, R91). -/
def RxPort.status (p : RxPort) : ErrBits := BitVec.ofBool p.dor ++ BitVec.ofBool p.fe

/-- Error merging: the flags are ORed into `PENDERR` (R92). -/
def mergeErrors (pending status : ErrBits) : ErrBits := pending ||| status

end Sys2Proof.Machine
end

