-- ==== Sys2Proof/Decode.lean ====
section
/-!
DEFINITION. Decoding and encoding of command words and grant codes (spec/30_encoding.md R55 to R59, R66,
R68, R71). Decoding is total and depends on no state; every word that is no command is rejected by name.
-/

namespace Sys2Proof

/-! ## The format CMD (R55) and the operand fields (R56) -/

/-- `cmd[31:28]` -/
def opField (w : CmdWord) : BitVec 4 := w.extractLsb' 28 4
/-- `cmd[27:24]` -/
def argField (w : CmdWord) : BitVec 4 := w.extractLsb' 24 4
/-- `cmd[23:0]` -/
def immField (w : CmdWord) : BitVec 24 := w.extractLsb' 0 24

/-- `{op, arg, imm}` -/
def packCmd (op arg : BitVec 4) (imm : BitVec 24) : CmdWord := op ++ (arg ++ imm)

/-- `lvl = cmd[25:24]`, the low two bits of `arg` (R56). -/
def argLevel (arg : BitVec 4) : Level := arg.extractLsb' 0 2
/-- The must-be-zero bits `cmd[27:26]` of a level operand (R68). -/
def argLevelMbz (arg : BitVec 4) : BitVec 2 := arg.extractLsb' 2 2
/-- `arg` holding a level, its must-be-zero bits 0. -/
def levelArg (lvl : Level) : BitVec 4 := 0#2 ++ lvl

/-- `b = cmd[24]`, 0 = `RX`, 1 = `TX` (R56). -/
def argBuf (arg : BitVec 4) : Buf := if arg.extractLsb' 0 1 = 0#1 then .rx else .tx
/-- The must-be-zero bits `cmd[27:25]` of a buffer operand (R68). -/
def argBufMbz (arg : BitVec 4) : BitVec 3 := arg.extractLsb' 1 3
/-- `arg` holding a buffer selector. -/
def bufArg : Buf → BitVec 4
  | .rx => 0#4
  | .tx => 1#4

/-- `byte = cmd[7:0]` (R56). -/
def immByte (imm : BitVec 24) : Byte := imm.extractLsb' 0 8
/-- The must-be-zero bits `cmd[23:8]` of `SEND` (R68). -/
def immByteMbz (imm : BitVec 24) : BitVec 16 := imm.extractLsb' 8 16
/-- `imm` holding a byte. -/
def byteImm (b : Byte) : BitVec 24 := 0#16 ++ b

/-- `fmt = cmd[4:0]` (R56). -/
def immFmt (imm : BitVec 24) : FmtBits := imm.extractLsb' 0 5
/-- The must-be-zero bits `cmd[23:5]` of `SETFMT` (R68). -/
def immFmtMbz (imm : BitVec 24) : BitVec 19 := imm.extractLsb' 5 19
/-- `imm` holding a frame format. -/
def fmtImm (f : FmtBits) : BitVec 24 := 0#19 ++ f

/-- `PMODE = fmt[3:2]` (R30, R56). -/
def fmtPmode (f : FmtBits) : BitVec 2 := f.extractLsb' 2 2
/-- `PMODE` = 1 is reserved (R30, R135). -/
def fmtLegal (f : FmtBits) : Bool := fmtPmode f != 1#2

/-! ## Decoding (R57, R59, R68) -/

/-- Why a word is no command (R68); each is answered with the one code `ILLEGAL` (R63). -/
inductive Reject where
  /-- `op` is 0x0, 0xE or 0xF, or a grant code names no event. -/
  | reservedOp
  /-- A must-be-zero bit of a listed `op` is set. -/
  | mustBeZero
  /-- `SETFMT` with `PMODE` = 1 (R135). -/
  | reservedPmode
deriving DecidableEq, Repr

/-- What a word decodes to. -/
inductive Decoded where
  | ok (i : Instr)
  | reject (r : Reject)
deriving DecidableEq, Repr

/-- The instruction, if there is one. -/
def Decoded.instr? : Decoded → Option Instr
  | .ok i => some i
  | .reject _ => none

/-- The command, if the must-be-zero bits are 0. -/
def guardMbz (zero : Bool) (i : Instr) : Decoded := if zero then .ok i else .reject .mustBeZero

/-- `SETFMT`: must-be-zero bits first, then the reserved `PMODE`; both have the same answer (R134, R135). -/
def decodeSetFmt (zero : Bool) (f : FmtBits) : Decoded :=
  if zero then (if fmtLegal f then .ok (.setFmt f) else .reject .reservedPmode) else .reject .mustBeZero

/-- Decoding of the three fields by the opcode map of R57. -/
def decodeFields (op arg : BitVec 4) (imm : BitVec 24) : Decoded :=
  if op = 0x1#4 then guardMbz (argLevelMbz arg == 0#2) (.init (argLevel arg) imm)
  else if op = 0x2#4 then guardMbz (arg == 0#4 && immByteMbz imm == 0#16) (.send (immByte imm))
  else if op = 0x3#4 then guardMbz (arg == 0#4 && imm == 0#24) .tryRecv
  else if op = 0x4#4 then guardMbz (arg == 0#4 && imm == 0#24) .hasIn
  else if op = 0x5#4 then guardMbz (arg == 0#4 && imm == 0#24) .hasOut
  else if op = 0x6#4 then guardMbz (argLevelMbz arg == 0#2 && imm == 0#24) (.setRxcLvl (argLevel arg))
  else if op = 0x7#4 then guardMbz (argLevelMbz arg == 0#2 && imm == 0#24) (.setTxcLvl (argLevel arg))
  else if op = 0x8#4 then guardMbz (argLevelMbz arg == 0#2 && imm == 0#24) (.setDreLvl (argLevel arg))
  else if op = 0x9#4 then guardMbz (argBufMbz arg == 0#3 && imm == 0#24) (.isEmpty (argBuf arg))
  else if op = 0xA#4 then guardMbz (argBufMbz arg == 0#3 && imm == 0#24) (.isFull (argBuf arg))
  else if op = 0xB#4 then guardMbz (argBufMbz arg == 0#3 && imm == 0#24) (.free (argBuf arg))
  else if op = 0xC#4 then guardMbz (arg == 0#4) (.setBaud imm)
  else if op = 0xD#4 then decodeSetFmt (arg == 0#4 && immFmtMbz imm == 0#19) (immFmt imm)
  else .reject .reservedOp

/-- Decoding of a command word: total, a function of the word alone (R59). -/
def decode (w : CmdWord) : Decoded := decodeFields (opField w) (argField w) (immField w)

/-- The event a grant code names; `IDLE` and `FG` name none (R66). -/
def decodeGrant (g : GrantCode) : Decoded :=
  if g = 0b10#2 then .ok .rxcEvent
  else if g = 0b11#2 then .ok .dreEvent
  else .reject .reservedOp

/-! ## Encoding -/

/-- The encoding of an operation: a command word, or, for a handler event, a grant code (R65, R66). -/
inductive Code where
  | cmd (w : CmdWord)
  | grant (g : GrantCode)
deriving DecidableEq, Repr

/-- The words of R57, R58. -/
def encode : Instr → Code
  | .init lvl baud => .cmd (packCmd 0x1#4 (levelArg lvl) baud)
  | .send b => .cmd (packCmd 0x2#4 0#4 (byteImm b))
  | .tryRecv => .cmd (packCmd 0x3#4 0#4 0#24)
  | .hasIn => .cmd (packCmd 0x4#4 0#4 0#24)
  | .hasOut => .cmd (packCmd 0x5#4 0#4 0#24)
  | .setRxcLvl lvl => .cmd (packCmd 0x6#4 (levelArg lvl) 0#24)
  | .setTxcLvl lvl => .cmd (packCmd 0x7#4 (levelArg lvl) 0#24)
  | .setDreLvl lvl => .cmd (packCmd 0x8#4 (levelArg lvl) 0#24)
  | .isEmpty b => .cmd (packCmd 0x9#4 (bufArg b) 0#24)
  | .isFull b => .cmd (packCmd 0xA#4 (bufArg b) 0#24)
  | .free b => .cmd (packCmd 0xB#4 (bufArg b) 0#24)
  | .setBaud baud => .cmd (packCmd 0xC#4 0#4 baud)
  | .setFmt f => .cmd (packCmd 0xD#4 0#4 (fmtImm f))
  | .rxcEvent => .grant 0b10#2
  | .dreEvent => .grant 0b11#2

/-- Decoding of either kind of code. -/
def decodeCode : Code → Decoded
  | .cmd w => decode w
  | .grant g => decodeGrant g

/-! ## The match and mask table of R58 -/

/-- One row of R58: a word `w` is the command iff `w & mask == pattern`. -/
structure CmdRow where
  mnemonic : String
  pattern : CmdWord
  mask : CmdWord
deriving DecidableEq, Repr

/-- The rows of R58, in its order. -/
def cmdRows : List CmdRow :=
  [⟨"INIT", 0x10000000#32, 0xFC000000#32⟩,
   ⟨"SEND", 0x20000000#32, 0xFFFFFF00#32⟩,
   ⟨"TRYRECV", 0x30000000#32, 0xFFFFFFFF#32⟩,
   ⟨"HASIN", 0x40000000#32, 0xFFFFFFFF#32⟩,
   ⟨"HASOUT", 0x50000000#32, 0xFFFFFFFF#32⟩,
   ⟨"SETRXCLVL", 0x60000000#32, 0xFCFFFFFF#32⟩,
   ⟨"SETTXCLVL", 0x70000000#32, 0xFCFFFFFF#32⟩,
   ⟨"SETDRELVL", 0x80000000#32, 0xFCFFFFFF#32⟩,
   ⟨"ISEMPTY", 0x90000000#32, 0xFEFFFFFF#32⟩,
   ⟨"ISFULL", 0xA0000000#32, 0xFEFFFFFF#32⟩,
   ⟨"FREE", 0xB0000000#32, 0xFEFFFFFF#32⟩,
   ⟨"SETBAUD", 0xC0000000#32, 0xFF000000#32⟩,
   ⟨"SETFMT", 0xD0000000#32, 0xFFFFFFE0#32⟩]

/-- `w & mask == pattern` (R58). -/
def CmdRow.hits (r : CmdRow) (w : CmdWord) : Bool := w &&& r.mask == r.pattern

/-! ## The host's entry (spec/opcode_table.json) -/

/-- What the decoder reads from a table row's word. A command row has 32 bits and is one command word
(R71); a handler event's row has the 2 bits of its grant code, in one byte (R66). -/
def decodeTableWord (nbits w : Nat) : Option Instr :=
  if nbits ≤ 8 then (if w < 4 then (decodeGrant (BitVec.ofNat 2 w)).instr? else none)
  else (decode (BitVec.ofNat 32 w)).instr?

end Sys2Proof
end

