-- ==== Sys2Proof/Machine/Operands.lean ====
section
/-!
DEFINITION. Operands: what a buffer selector selects (spec/30_encoding.md R56; spec/10_state.md R14), what a
frame format means (R30), and the values the Register Interface shows (R34, R35).
-/

namespace Sys2Proof.Machine

/-! ## The buffer selector -/

/-- `N_b` (R6). -/
def State.slots (s : State) : Buf → Nat
  | .rx => s.params.nRx
  | .tx => s.params.nTx

/-- `head[b]` (R14). -/
def State.head (s : State) : Buf → Nat
  | .rx => s.headRx
  | .tx => s.headTx

/-- `tail[b]` (R14). -/
def State.tail (s : State) : Buf → Nat
  | .rx => s.tailRx
  | .tx => s.tailTx

/-- `head[b] <- v` -/
def State.setHead (s : State) (b : Buf) (v : Nat) : State :=
  match b with
  | .rx => { s with headRx := v }
  | .tx => { s with headTx := v }

/-- `tail[b] <- v` -/
def State.setTail (s : State) (b : Buf) (v : Nat) : State :=
  match b with
  | .rx => { s with tailRx := v }
  | .tx => { s with tailTx := v }

/-- `MEM_b`: `RXMEM` or `TXMEM` (R40). -/
def State.mem (s : State) : Buf → Memory 8
  | .rx => s.rxMem
  | .tx => s.txMem

/-- The byte space of `b` replaced. -/
def State.setMem (s : State) (b : Buf) (m : Memory 8) : State :=
  match b with
  | .rx => { s with rxMem := m }
  | .tx => { s with txMem := m }

/-! ## The frame format (R30, R135) -/

/-- `CHSIZE = fmt[1:0]` (R30). -/
def fmtChsize (f : FmtBits) : BitVec 2 := f.extractLsb' 0 2
/-- `SBMODE = fmt[4]` (R30). -/
def fmtSbmode (f : FmtBits) : Bool := f.getLsbD 4

/-- Parity of a frame (R30). -/
inductive Parity where
  | none
  | even
  | odd
deriving DecidableEq, Repr

/-- What a frame format names: data bits, parity, stop bits. -/
structure FrameFormat where
  dataBits : Nat
  parity : Parity
  stopBits : Nat
deriving DecidableEq, Repr

/-- The parity `PMODE` names; 1 is reserved (R30). -/
def pmodeParity (p : BitVec 2) : Option Parity :=
  if p = 0#2 then some .none
  else if p = 2#2 then some .even
  else if p = 3#2 then some .odd
  else Option.none

/-- The frame format of `FMT` (R30); none where `PMODE` is reserved (R135). -/
def frameFormat (f : FmtBits) : Option FrameFormat :=
  (pmodeParity (fmtPmode f)).map fun p =>
    ⟨5 + (fmtChsize f).toNat, p, if fmtSbmode f then 2 else 1⟩

/-- 8N1: `CHSIZE` = 3, `PMODE` = 0, `SBMODE` = 0 (R30, R121). -/
def fmt8N1 : FmtBits := 0b00011#5

/-! ## What the Register Interface shows (R34, R35) -/

/-- `ri_dre_lvl = DRE_ARMED ? DRELVL : 0` (R114). -/
def State.effectiveDreLvl (s : State) : Level :=
  match s.dreArmed with
  | .armed => s.dreLvl
  | .disarmed => 0#2

/-- The configuration outputs, always the registers (R35). -/
def State.riCfg (s : State) : RiCfg :=
  ⟨s.rxcLvl, s.txcLvl, s.effectiveDreLvl, s.baud, s.fmt, s.rxEn, s.txEn⟩

/-- `fc_paused` (R33, R104). -/
def State.fcPausedOut (s : State) : Bool := s.fcPaused

/-- The grant code on `grant` (R66). -/
def Grant.code : Grant → GrantCode
  | .idle => 0b00#2
  | .fg => 0b01#2
  | .rxcEvent => 0b10#2
  | .dreEvent => 0b11#2

end Sys2Proof.Machine
end

