-- ==== Sys2Proof/Machine/Ops.lean ====
section
/-!
DEFINITION. The named operations every meaning is written over: cursor arithmetic and slot storage
(spec/20_memory.md; spec/41_buffer_primitives.md), the Register Interface transactions (spec/10_state.md R35
to R37), flow control (spec/42_receive_path.md R99 to R104), responses and refusals (spec/30_encoding.md R60 to
R69), beginning and ending an operation, which is handler entry and return (spec/60_exceptions.md R155, R156),
and hardware reset (spec/70_reset_and_hazards.md R170).
-/

namespace Sys2Proof.Machine

/-! ## Cursor arithmetic (R8, R81) -/

/-- `x & mask` with `mask = n - 1`: for a power of two, `x mod n` of every integer, negative ones included
(R81). -/
def wrap (n : Nat) (x : Int) : Nat := (x % (n : Int)).toNat

/-! ## Slot storage (R40 to R45) -/

/-- The slot at index `i`, if something wrote it since reset. -/
def Memory.read {w : Nat} : Memory w → Nat → Option (BitVec w)
  | [], _ => none
  | (a, v) :: m, i => if a = i then some v else Memory.read m i

/-- The slot at index `i` takes `v`; the list keeps its indices strictly rising. -/
def Memory.write {w : Nat} : Memory w → Nat → BitVec w → Memory w
  | [], i, v => [(i, v)]
  | (a, u) :: m, i, v =>
    if i < a then (i, v) :: (a, u) :: m
    else if i = a then (i, v) :: m
    else (a, u) :: Memory.write m i v

/-- Every listed index is at least `lo` and the indices rise strictly. -/
def Memory.risesFrom {w : Nat} : Nat → Memory w → Bool
  | _, [] => true
  | lo, (a, _) :: m => lo ≤ a && Memory.risesFrom (a + 1) m

/-- The canonical form: indices strictly rising. An unlisted slot has no value (log 5), so no entry equals what
an unlisted slot reads as. -/
def Memory.wf {w : Nat} (m : Memory w) : Bool := Memory.risesFrom 0 m

/-- Every listed index is a slot of a space with `n` slots (R43). -/
def Memory.inBounds {w : Nat} (n : Nat) (m : Memory w) : Bool := m.all fun c => c.1 < n

/-- What a slot of buffer `b` reads as that nothing wrote (log 5). -/
def freeByte (draw : Nat) : Buf → Byte
  | .rx => Config.freeRxByte draw
  | .tx => Config.freeTxByte draw

/-- `MemRead(MEM_b, i, 1)` (R9). -/
def State.memRead (s : State) (b : Buf) (i : Nat) : Byte := ((s.mem b).read i).getD (freeByte s.draws b)

/-- `MemRead(RXTAG, i, 1)` (R9). -/
def State.tagRead (s : State) (i : Nat) : ErrBits := (s.rxTag.read i).getD (Config.freeRxTag s.draws)

/-- `MemWrite(MEM_b, i, 1, v)` (R9). -/
def State.memWrite (s : State) (b : Buf) (i : Nat) (v : Byte) : State := s.setMem b ((s.mem b).write i v)

/-- `MemWrite(RXTAG, i, 1, t)` (R9). -/
def State.tagWrite (s : State) (i : Nat) (t : ErrBits) : State := { s with rxTag := s.rxTag.write i t }

/-- `emit`: an entry of the observation log (R9, R11). -/
def State.emit (s : State) (o : Obs) : State := { s with log := o :: s.log }

/-! ## The buffer primitives (R75 to R80) -/

/-- `Count(b) = (head[b] - tail[b]) & mask` (R75). -/
def State.count (s : State) (b : Buf) : Nat := wrap (s.slots b) ((s.head b : Int) - (s.tail b : Int))

/-- `IsEmpty(b) = (head[b] == tail[b])` (R76). -/
def State.isEmpty (s : State) (b : Buf) : Bool := s.head b == s.tail b

/-- A cursor advanced by one, `(c + 1) & mask` (R79, R80). -/
def State.advance (s : State) (b : Buf) (c : Nat) : Nat := wrap (s.slots b) ((c : Int) + 1)

/-- `IsFull(b) = (((head[b] + 1) & mask) == tail[b])` (R77). -/
def State.isFull (s : State) (b : Buf) : Bool := s.advance b (s.head b) == s.tail b

/-- `Free(b) = (N - 1) - Count(b)` (R78). -/
def State.free (s : State) (b : Buf) : Nat := (s.slots b - 1) - s.count b

/-- `TryPush(b, v)` (R79): none if the buffer is full, `v` discarded and nothing written. -/
def State.tryPush (s : State) (b : Buf) (v : Byte) : Option State :=
  if s.isFull b then none
  else some (((s.memWrite b (s.head b) v).setHead b (s.advance b (s.head b))).emit (.push b v))

/-- `TryPop(b)` (R80): none if the buffer is empty and nothing written. -/
def State.tryPop (s : State) (b : Buf) : Option (Byte × State) :=
  if s.isEmpty b then none
  else some (s.memRead b (s.tail b),
    (s.setTail b (s.advance b (s.tail b))).emit (.pop b (s.memRead b (s.tail b))))

/-! ## The Register Interface (R35 to R37, R45) -/

/-- `RI.ReadStatus()`: no side effect (R35). -/
def State.riReadStatus (s : State) : ErrBits := s.inp.rx.status

/-- The value of `RI.ReadData()` (R35). -/
def State.riData (s : State) : Byte := s.inp.rx.data

/-- The side effect of `RI.ReadData()`: `ri_rx_rd` pulses and `ri_rxc_req` is 0 until PERIPH has another byte
(R35, R36, log 3). -/
def State.riReadData (s : State) : State :=
  { s with
    out := { s.out with riRxRd := true }
    inp := { s.inp with rx := { s.inp.rx with req := false } } }

/-- `RI.WriteData(v)`: `ri_tx_wr` pulses with `ri_tx_data` = `v`, the byte joins `WIRE`, and `ri_dre_req` is 0
until PERIPH is ready again (R35, R37, log 3). -/
def State.riWriteData (s : State) (v : Byte) : State :=
  { s with
    out := { s.out with riTxWr := true, riTxData := some v }
    inp := { s.inp with dreReq := false }
    log := .wire v :: s.log }

/-! ## Flow control (R99 to R104) -/

/-- `FlowControlAfterPush()` (R100): evaluated with the new `head[RX]`. -/
def State.flowControlAfterPush (s : State) : State :=
  if s.params.fcEn && !s.fcPaused && s.free .rx ≤ s.params.lowWm then
    { s with fcPaused := true, out := { s.out with fcPause := true }, log := .fc .pause :: s.log }
  else s

/-- `FlowControlAfterPop()` (R101): evaluated with the new `tail[RX]`. -/
def State.flowControlAfterPop (s : State) : State :=
  if s.params.fcEn && s.fcPaused && s.params.highWm ≤ s.free .rx then
    { s with fcPaused := false, out := { s.out with fcResume := true }, log := .fc .resume :: s.log }
  else s

/-! ## Responses (R60 to R64, R69) -/

/-- The command is performed: `cmd_ready`, `rsp_valid` and `rsp` for this step, the entry of `RSP`, and the
command leaves the port (R60, R61, log 3). -/
def State.respond (s : State) (r : Rsp) : State :=
  { s with
    out := { s.out with cmdReady := true, rspValid := true, rsp := r.word }
    inp := { s.inp with cmd := { s.inp.cmd with valid := false } }
    log := .rsp s.inp.cmd.word r.word :: s.log }

/-- `respond ERR(code)`: a refused command does nothing else (R9, R69). -/
def State.refuse (s : State) (c : RefusalCode) : State := s.respond (Rsp.refusal c)

/-- A command other than `INIT`: refused while `INITED` = 0 (R123). -/
def State.whenInited (s body : State) : State := if s.inited then body else s.refuse .notInit

/-- The writes of `INIT lvl, baud` (R121): every state element except the slot arrays. -/
def State.initialise (s : State) (lvl : Level) (baud : Baud) : State :=
  { s with
    headRx := 0, tailRx := 0, headTx := 0, tailTx := 0
    ovf := false, penderr := 0#2, fcPaused := false
    dreArmed := .disarmed
    baud := baud
    fmt := fmt8N1
    dreLvl := lvl
    txcLvl := 0#2
    rxcLvl := s.params.rxcInitLvl
    rxEn := true, txEn := true
    inited := true }

/-! ## An operation begins and ends: handler entry and return (R155, R156) -/

/-- `ri_tx_data` in a step that writes nothing, from the outputs of the step before: 0 since reset stays 0 (R172);
after a write the port is not valid (R34) and its value is not stated (log 7). -/
def Outputs.heldTxData (o : Outputs) : Option Byte := if o.riTxWr then none else o.riTxData

/-- The outputs of a step before its operation drives any (R61, R104), after a step with outputs `o`. -/
def Outputs.begin (g : Grant) (o : Outputs) : Outputs :=
  ⟨false, false, 0#16, g, false, false, false, false, o.heldTxData⟩

/-- Grant `g` is taken. For a handler event this is its entry: it saves nothing and changes no mode, mask or
stack (R155). The step's pulses are cleared, `GRANT` gets its entry, the free values of the step are drawn. -/
def State.beginOp (s : State) (g : Grant) : State :=
  { s with out := Outputs.begin g s.out, log := .grant g :: s.log, draws := s.draws + 1 }

/-- The operation is over; for a handler event this is its return (R156). `RICFG` gets an entry if a driven
configuration value changed since `before` (R11, log 8). -/
def State.endOp (before s : State) : State :=
  if s.riCfg = before.riCfg then s else s.emit (.riCfg s.riCfg)

/-- `endOp` on an outcome. -/
def endOutcome (before : State) : Host.Outcome State Fault Refusal → Host.Outcome State Fault Refusal
  | .next s => .next (State.endOp before s)
  | .fault r => .fault r
  | .refused r => .refused r

/-! ## The environment acts, and resets (R10, R170) -/

/-- The inputs after a frame's changes. -/
def Frame.apply (f : Frame) (i : Inputs) : Inputs :=
  ⟨f.rst.getD i.rst, f.cmd.getD i.cmd, f.rx.getD i.rx, f.dreReq.getD i.dreReq⟩

/-- The frame of the free environment: every input driven (log 2). -/
def Frame.free (draw : Nat) : Frame where
  rst := some (Config.freeRst draw)
  cmd := some ⟨Config.freeCmdValid draw, Config.freeCmdWord draw⟩
  rx := some ⟨Config.freeRxcReq draw, Config.freeRxData draw, Config.freeFe draw, Config.freeDor draw⟩
  dreReq := some (Config.freeDreReq draw)

/-- The first frame after the script. -/
def Rest.frame (draw : Nat) : Rest → Frame
  | .loop f _ => f
  | .free => Frame.free draw

/-- What is left when that frame is taken: a loop turns by one. -/
def Rest.next : Rest → Rest
  | .loop f [] => .loop f []
  | .loop f (g :: gs) => .loop g (gs ++ [f])
  | .free => .free

/-- What the environment changes before the next step samples (R10, R167; log 2). -/
def State.nextFrame (s : State) : Frame :=
  match s.script with
  | f :: _ => f
  | [] => s.rest.frame s.draws

/-- What it does after the script once that frame is taken. -/
def State.restAfter (s : State) : Rest := if s.script.isEmpty then s.rest.next else s.rest

/-- The environment's next frame is driven and the inputs are sampled. -/
def State.sample (s : State) : State :=
  { s with inp := s.nextFrame.apply s.inp, script := s.script.tail, rest := s.restAfter }

/-- A clock edge with `rst` = 1 (R170): every state element takes its reset value, nothing is performed, the
traces get the mark only; the inputs stay as driven (log 9). -/
def State.hardReset (s : State) : State :=
  { State.resetWith s.params with
    inp := s.inp
    script := s.script
    rest := s.rest
    log := .reset :: s.log
    draws := s.draws + 1 }

end Sys2Proof.Machine
end

