-- ==== Sys2Proof/Machine/Arbiter.lean ====
section
/-!
DEFINITION. `uart_interrupt_arbiter`: the pending conditions and the choice of what a step performs
(spec/60_exceptions.md R147 to R153).
-/

namespace Sys2Proof.Machine

/-- `rxc_pending` (R149). -/
def State.rxcPending (s : State) : Bool := s.inited && s.inp.rx.req && s.rxcLvl != 0#2

/-- `dre_pending` (R150). -/
def State.drePending (s : State) : Bool :=
  s.inited && s.inp.dreReq && s.dreArmed == .armed && s.dreLvl != 0#2

/-- `Arbitrate()` (R151): of two pending events the higher level, at equal level receive first (R152); then a
presented command; else nothing. -/
def State.arbitrate (s : State) : Grant :=
  if s.rxcPending && (!s.drePending || s.dreLvl.toNat ≤ s.rxcLvl.toNat) then .rxcEvent
  else if s.drePending then .dreEvent
  else if s.inp.cmd.valid then .fg
  else .idle

/-- A handler event is pending (R12). -/
def State.handlerPending (s : State) : Bool := s.rxcPending || s.drePending

/-- Quiescent: no handler event pending and no command presented (R12). -/
def State.quiescent (s : State) : Bool := !s.handlerPending && !s.inp.cmd.valid

end Sys2Proof.Machine
end

