-- ==== Sys2Proof/Machine/Buffer.lean ====
section
/-!
DEFINITION. The query commands `ISEMPTY`, `ISFULL`, `FREE` (spec/41_buffer_primitives.md R82 to R84).
-/

namespace Sys2Proof.Machine

/-- `ISEMPTY b` (R82). -/
def execIsEmpty (b : Buf) (s : State) : Host.Outcome State Fault Refusal :=
  .next (s.whenInited (s.respond (Rsp.result (s.isEmpty b))))

/-- `ISFULL b` (R83). -/
def execIsFull (b : Buf) (s : State) : Host.Outcome State Fault Refusal :=
  .next (s.whenInited (s.respond (Rsp.result (s.isFull b))))

/-- `zext_8(Free(b))` (R84). A free space above 255 does not fit `VAL`, and no rule says what `VAL` is then: a
free value (log 6). -/
def freeVal (draw free : Nat) : Byte :=
  if free < 256 then BitVec.ofNat 8 free else Config.freeWideCount draw

/-- `FREE b` (R84). -/
def execFree (b : Buf) (s : State) : Host.Outcome State Fault Refusal :=
  .next (s.whenInited (s.respond (Rsp.value (freeVal s.draws (s.free b)))))

end Sys2Proof.Machine
end

