-- ==== Sys2Proof/Machine/Facade.lean ====
section
/-!
DEFINITION. The driver facade: `INIT`, the level setters, `SETBAUD`, `SETFMT` (spec/44_facade_config.md R120 to
R127, R133 to R135).
-/

namespace Sys2Proof.Machine

/-- `INIT lvl, baud` (R121); one-shot (R122). -/
def execInit (lvl : Level) (baud : Baud) (s : State) : Host.Outcome State Fault Refusal :=
  .next (if s.inited then s.refuse .reInit else (s.initialise lvl baud).respond Rsp.done)

/-- `SETRXCLVL lvl` (R124). -/
def execSetRxcLvl (lvl : Level) (s : State) : Host.Outcome State Fault Refusal :=
  .next (s.whenInited (({ s with rxcLvl := lvl }).respond Rsp.done))

/-- `SETTXCLVL lvl` (R125). -/
def execSetTxcLvl (lvl : Level) (s : State) : Host.Outcome State Fault Refusal :=
  .next (s.whenInited (({ s with txcLvl := lvl }).respond Rsp.done))

/-- `SETDRELVL lvl` (R126): the stored level only, never the armed state. -/
def execSetDreLvl (lvl : Level) (s : State) : Host.Outcome State Fault Refusal :=
  .next (s.whenInited (({ s with dreLvl := lvl }).respond Rsp.done))

/-- `SETBAUD baud` (R133): forwarded unchanged. -/
def execSetBaud (baud : Baud) (s : State) : Host.Outcome State Fault Refusal :=
  .next (s.whenInited (({ s with baud := baud }).respond Rsp.done))

/-- `SETFMT fmt` (R134). `PMODE` = 1 is an illegal encoding and is checked before `INITED` (R135, R154); no word
decodes to such a term. -/
def execSetFmt (f : FmtBits) (s : State) : Host.Outcome State Fault Refusal :=
  .next (if fmtLegal f then s.whenInited (({ s with fmt := f }).respond Rsp.done) else s.refuse .illegal)

end Sys2Proof.Machine
end

