-- ==== Sys2Proof/Machine/Receive.lean ====
section
/-!
DEFINITION. The receive path: `RXC_EVENT`, `TRYRECV`, `HASIN` (spec/42_receive_path.md R90 to R98).
-/

namespace Sys2Proof.Machine

/-- The event's buffer side, once status and data are read: the push fails and the byte is lost, its errors
staying pending, or the byte is stored with the merged errors as its tag (R91 to R93). -/
def State.receiveByte (s : State) (d : Byte) (e : ErrBits) : State :=
  match s.tryPush .rx d with
  | none => { s with ovf := true, penderr := e }
  | some t => ({ t.tagWrite (s.head .rx) e with penderr := 0#2 }).flowControlAfterPush

/-- `RXC_EVENT` (R91): the data register is read on every event, whatever the buffer says (R94). -/
def execRxcEvent (s : State) : Host.Outcome State Fault Refusal :=
  .next (s.riReadData.receiveByte s.riData (mergeErrors s.penderr s.riReadStatus))

/-- `TRYRECV` performed: `OVF` is reported and cleared, whether or not a byte is returned (R95 to R97). -/
def State.receive (s : State) : State :=
  match ({ s with ovf := false }).tryPop .rx with
  | none => ({ s with ovf := false }).respond (Rsp.received (.ofEmpty s.ovf) 0#8)
  | some (d, t) =>
    t.flowControlAfterPop.respond (Rsp.received (.ofTag s.ovf (s.tagRead (s.tail .rx))) d)

/-- `TRYRECV` (R95). -/
def execTryRecv (s : State) : Host.Outcome State Fault Refusal :=
  .next (s.whenInited s.receive)

/-- `HASIN` (R98). -/
def execHasIn (s : State) : Host.Outcome State Fault Refusal :=
  .next (s.whenInited (s.respond (Rsp.result (!s.isEmpty .rx))))

end Sys2Proof.Machine
end

