-- ==== Sys2Proof/Machine/Transmit.lean ====
section
/-!
DEFINITION. The transmit path: `SEND`, `DRE_EVENT`, `HASOUT` (spec/43_transmit_path.md R105 to R110, R113).
-/

namespace Sys2Proof.Machine

/-- `SEND byte` performed: the byte is queued and the interrupt armed, or the buffer is full and nothing is
written (R105, R106). -/
def State.sendByte (s : State) (b : Byte) : State :=
  match s.tryPush .tx b with
  | none => s.respond (Rsp.result false)
  | some t => ({ t with dreArmed := .armed }).respond Rsp.done

/-- `SEND byte` (R105). -/
def execSend (b : Byte) (s : State) : Host.Outcome State Fault Refusal :=
  .next (s.whenInited (s.sendByte b))

/-- `DRE_EVENT` (R107): one byte goes to the peripheral, or, on an empty buffer, the interrupt is disarmed
(R108). -/
def execDreEvent (s : State) : Host.Outcome State Fault Refusal :=
  .next (match s.tryPop .tx with
    | none => { s with dreArmed := .disarmed }
    | some (d, t) => t.riWriteData d)

/-- `HASOUT` (R110). -/
def execHasOut (s : State) : Host.Outcome State Fault Refusal :=
  .next (s.whenInited (s.respond (Rsp.result (!s.isFull .tx))))

end Sys2Proof.Machine
end

