-- ==== Sys2Proof/Machine/Dispatch.lean ====
section
/-! DEFINITION. Which meaning each instruction has: one arm per constructor of `Instr`. -/

namespace Sys2Proof.Machine

def exec (i : Instr) (s : State) : Host.Outcome State Fault Refusal :=
  match i with
  | .init lvl baud => Sys2Proof.Machine.execInit lvl baud s
  | .send b => Sys2Proof.Machine.execSend b s
  | .tryRecv => Sys2Proof.Machine.execTryRecv s
  | .hasIn => Sys2Proof.Machine.execHasIn s
  | .hasOut => Sys2Proof.Machine.execHasOut s
  | .setRxcLvl lvl => Sys2Proof.Machine.execSetRxcLvl lvl s
  | .setTxcLvl lvl => Sys2Proof.Machine.execSetTxcLvl lvl s
  | .setDreLvl lvl => Sys2Proof.Machine.execSetDreLvl lvl s
  | .isEmpty b => Sys2Proof.Machine.execIsEmpty b s
  | .isFull b => Sys2Proof.Machine.execIsFull b s
  | .free b => Sys2Proof.Machine.execFree b s
  | .setBaud baud => Sys2Proof.Machine.execSetBaud baud s
  | .setFmt f => Sys2Proof.Machine.execSetFmt f s
  | .rxcEvent => Sys2Proof.Machine.execRxcEvent s
  | .dreEvent => Sys2Proof.Machine.execDreEvent s

end Sys2Proof.Machine
end

