-- ==== Sys2Proof/WellFormed.lean ====
section
/-!
DEFINITION. Which terms of `Instr` are instructions. Every operand is a bit field of its own width and every
value of it is legal (spec/30_encoding.md R56; spec/44_facade_config.md R127), but for one: `SETFMT` with
`PMODE` = 1 is no instruction (R58, R135).
-/

namespace Sys2Proof

/-- The one check a mask cannot express (R58): `SETFMT`'s `PMODE` is not 1. -/
def Instr.wellFormed : Instr → Bool
  | .init _ _ => true
  | .send _ => true
  | .tryRecv => true
  | .hasIn => true
  | .hasOut => true
  | .setRxcLvl _ => true
  | .setTxcLvl _ => true
  | .setDreLvl _ => true
  | .isEmpty _ => true
  | .isFull _ => true
  | .free _ => true
  | .setBaud _ => true
  | .setFmt f => fmtLegal f
  | .rxcEvent => true
  | .dreEvent => true

/-- Whether an operation is a command of the foreground (R57) or a handler event (R65). -/
def Instr.isCommand : Instr → Bool
  | .init _ _ => true
  | .send _ => true
  | .tryRecv => true
  | .hasIn => true
  | .hasOut => true
  | .setRxcLvl _ => true
  | .setTxcLvl _ => true
  | .setDreLvl _ => true
  | .isEmpty _ => true
  | .isFull _ => true
  | .free _ => true
  | .setBaud _ => true
  | .setFmt _ => true
  | .rxcEvent => false
  | .dreEvent => false

end Sys2Proof
end

