-- ==== Sys2Proof/Machine/Perform.lean ====
section
/-!
DEFINITION. What the granted agent performs (spec/60_exceptions.md R151; spec/30_encoding.md R59, R69), and how
the very next step is made to perform a given table word (log 10).
-/

namespace Sys2Proof.Machine

/-- The presented word is performed, or, if it is no command, refused with `ILLEGAL` (R59, R68); this check
comes before the `INITED` checks of the meanings (R154). -/
def State.performCommand (s : State) : Host.Outcome State Fault Refusal :=
  match decode s.inp.cmd.word with
  | .ok i => exec i s
  | .reject _ => .next (s.refuse .illegal)

/-- The one operation of a step, on sampled inputs with `rst` = 0 (R10, R151). -/
def State.perform (s : State) : Host.Outcome State Fault Refusal :=
  match s.arbitrate with
  | .rxcEvent => exec .rxcEvent (s.beginOp .rxcEvent)
  | .dreEvent => exec .dreEvent (s.beginOp .dreEvent)
  | .fg => (s.beginOp .fg).performCommand
  | .idle => .next (s.beginOp .idle)

/-- The environment's next frame presents a command word, with no request and no reset in its way (log 10). -/
def State.presentNext (s : State) (w : CmdWord) : State :=
  { s with script :=
      ⟨some false, some ⟨true, w⟩, some { s.inp.rx with req := false }, some false⟩ :: s.script }

/-- An initialised state: as it is, or as `INIT 1, 0` leaves it (log 10). -/
def State.ensureInited (s : State) : State := if s.inited then s else s.initialise 1#2 0#24

/-- A level, or 1 if it is off. -/
def onLevel (l : Level) : Level := if l = 0#2 then 1#2 else l

/-- The next step performs `RXC_EVENT`: initialised, receive-complete on, a byte waiting, no other request
(log 10). -/
def State.raiseRxcNext (s : State) : State :=
  { s.ensureInited with
    rxcLvl := onLevel s.ensureInited.rxcLvl
    script := ⟨some false, none, some { s.inp.rx with req := true }, some false⟩ :: s.script }

/-- The next step performs `DRE_EVENT`: initialised, armed at a level that is on, the peripheral ready, no other
request (log 10). -/
def State.raiseDreNext (s : State) : State :=
  { s.ensureInited with
    dreArmed := .armed
    dreLvl := onLevel s.ensureInited.dreLvl
    script := ⟨some false, none, some { s.inp.rx with req := false }, some true⟩ :: s.script }

/-- The state in which the very next step runs the table row's word (log 10). -/
def State.fetchTableWord (s : State) (nbits w : Nat) : State :=
  if nbits ≤ 8 then
    (if w = 2 then s.raiseRxcNext else if w = 3 then s.raiseDreNext else s)
  else s.presentNext (BitVec.ofNat 32 w)

end Sys2Proof.Machine
end

