-- ==== Sys2Proof/Machine/Step.lean ====
section
/-!
DEFINITION. One step: the environment's changes are sampled; with `rst` = 1 the block resets, else the arbiter's
choice is performed, atomically (spec/00_scope.md R10; spec/70_reset_and_hazards.md R170).
-/

namespace Sys2Proof.Machine

/-- One rising edge of `clk` (R33). -/
def step (s : State) : Host.Outcome State Fault Refusal :=
  if s.sample.inp.rst then .next s.sample.hardReset
  else endOutcome s.sample s.sample.perform

/-- `s` with the table row's word placed where the next step takes its operation from (log 10). -/
def State.withFetchWord (s : State) (nbits w : Nat) : State := s.fetchTableWord nbits w

end Sys2Proof.Machine
end

