-- ==== Sys2Proof/Machine/Script.lean ====
section
/-!
DEFINITION. The textual items of spec/30_encoding.md R72: a line of a command sequence or event script, what it
is written as, and how the block runs it. These are inputs of FG, PERIPH and reset, not operations of the block
(log 11).
-/

namespace Sys2Proof.Machine

/-- One line of R72. -/
inductive Line where
  /-- a command, by its word -/
  | command (w : CmdWord)
  /-- `@ARRIVE byte [FE] [DOR]` -/
  | arrive (data : Byte) (fe dor : Bool)
  /-- `@TXREADY` -/
  | txReady
  /-- `@RESET` -/
  | reset
deriving DecidableEq, Repr

/-- The lines are all the environment does: no script, inputs held between lines (log 11). -/
def State.alone (s : State) : State := { s with script := [], rest := .still }

/-- The environment does what the line says, between two steps, and nothing else (R10, R72). -/
def Line.apply (l : Line) (s : State) : State :=
  match l with
  | .command w => { s.alone with inp := { s.inp with cmd := ⟨true, w⟩ } }
  | .arrive d fe dor => { s.alone with inp := { s.inp with rx := ⟨true, d, fe, dor⟩ } }
  | .txReady => { s.alone with inp := { s.inp with dreReq := true } }
  | .reset => s.alone.hardReset

/-- Steps until no handler event is pending and no command is presented, at most `fuel` of them (R72). -/
def settle : Nat → State → Host.Outcome State Fault Refusal
  | 0, s => .next s
  | fuel + 1, s =>
    if s.quiescent then .next s
    else match step s with
      | .next t => settle fuel t
      | .fault r => .fault r
      | .refused r => .refused r

/-- The lines in order, each followed by steps until the block is quiescent (R72). -/
def runLines (fuel : Nat) : List Line → State → Host.Outcome State Fault Refusal
  | [], s => .next s
  | l :: ls, s =>
    match settle fuel (l.apply s) with
    | .next t => runLines fuel ls t
    | .fault r => .fault r
    | .refused r => .refused r

/-- A buffer selector as R72 writes it. -/
def bufText : Buf → String
  | .rx => "RX"
  | .tx => "TX"

/-- The operands as R72 writes them, numbers in decimal. -/
def operandText : Instr → String
  | .init lvl baud => " " ++ toString lvl.toNat ++ ", " ++ toString baud.toNat
  | .send b => " " ++ toString b.toNat
  | .tryRecv => ""
  | .hasIn => ""
  | .hasOut => ""
  | .setRxcLvl lvl => " " ++ toString lvl.toNat
  | .setTxcLvl lvl => " " ++ toString lvl.toNat
  | .setDreLvl lvl => " " ++ toString lvl.toNat
  | .isEmpty b => " " ++ bufText b
  | .isFull b => " " ++ bufText b
  | .free b => " " ++ bufText b
  | .setBaud baud => " " ++ toString baud.toNat
  | .setFmt f => " " ++ toString f.toNat
  | .rxcEvent => ""
  | .dreEvent => ""

/-- A command in the syntax of R72; a handler event cannot be written. -/
def commandText (i : Instr) : Option String :=
  match encode i with
  | .cmd _ => some (i.mnemonic ++ operandText i)
  | .grant _ => none

/-- A line in the syntax of R72; a word that is no command has no mnemonic and cannot be written. -/
def Line.text : Line → Option String
  | .command w => (decode w).instr?.bind commandText
  | .arrive d fe dor =>
    some ("@ARRIVE " ++ toString d.toNat ++ (if fe then " FE" else "") ++ (if dor then " DOR" else ""))
  | .txReady => some "@TXREADY"
  | .reset => some "@RESET"

end Sys2Proof.Machine
end

