-- ==== Sys2Proof/Machine/SendString.lean ====
section
/-!
DEFINITION. The pseudo-instruction `SENDSTRING` (spec/30_encoding.md R73; spec/43_transmit_path.md R111, R112): a
loop of the foreground over `SEND`, outside the block. It may spin for ever, so it runs on fuel, one step each
(log 11).
-/

namespace Sys2Proof.Machine

/-- How a run of `SENDSTRING` stands. -/
inductive StringEnd where
  /-- it returned this result -/
  | returned (result : Bool)
  /-- it was still running when the fuel ended -/
  | running
deriving DecidableEq, Repr

/-- FG presents `SEND b` for the next step (R111). FG is running `SENDSTRING` and is the only driver of the command port
(R164), so what the environment's frame would drive on that port is dropped, the model's choice (log 11); its other
changes stand. -/
def State.presentSend (s : State) (b : Byte) : State :=
  { s with
    script := { s.nextFrame with cmd := some ⟨true, packCmd 0x2#4 0#4 (byteImm b)⟩ } :: s.script.tail
    rest := s.restAfter }

/-- What FG reads of the step's response port (R62): nothing, `ERR`, or `OK`. -/
inductive SendReply where
  | waiting
  | err
  | ok
  | full
deriving DecidableEq, Repr

/-- The reply in the step just taken: `cmd_ready` and `rsp_valid` say the command was performed (R60, R61). -/
def Outputs.sendReply (o : Outputs) : SendReply :=
  if !(o.cmdReady && o.rspValid) then .waiting
  else if o.rsp.getLsbD 15 then .err
  else if o.rsp.getLsbD 12 then .ok
  else .full

/-- `SENDSTRING`: each byte is sent until a response with `OK` = 1; `ERR` = 1 ends it with result false; while a
handler event is granted the command stays presented (R111). R111 does not say what a second driver of the command port
would do; `presentSend` drops its drive, the model's choice (log 11). -/
def sendString : Nat → List Byte → State → StringEnd × State
  | 0, [], s => (.returned true, s)
  | 0, _ :: _, s => (.running, s)
  | _ + 1, [], s => (.returned true, s)
  | fuel + 1, b :: bs, s =>
    match step (s.presentSend b) with
    | .next t =>
      match t.out.sendReply with
      | .err => (.returned false, t)
      | .ok => sendString fuel bs t
      | .full => sendString fuel (b :: bs) t
      | .waiting => sendString fuel (b :: bs) t
    | .fault _ => (.running, s)
    | .refused _ => (.running, s)

end Sys2Proof.Machine
end

