-- ==== Sys2Proof/Machine/Traces.lean ====
section
/-!
DEFINITION. The observation traces of spec/00_scope.md R11, read from the log, and what they count since the last
reset (spec/41_buffer_primitives.md R85, R86; spec/43_transmit_path.md R117). A log is newest first; a trace is
in the order of the run.
-/

namespace Sys2Proof.Machine

def Obs.rsp? : Obs → Option (CmdWord × RspWord)
  | .rsp w r => some (w, r)
  | _ => none

def Obs.wire? : Obs → Option Byte
  | .wire b => some b
  | _ => none

def Obs.fc? : Obs → Option FcEvent
  | .fc e => some e
  | _ => none

def Obs.riCfg? : Obs → Option RiCfg
  | .riCfg c => some c
  | _ => none

def Obs.grant? : Obs → Option Grant
  | .grant g => some g
  | _ => none

/-- A successful push to buffer `b`. -/
def Obs.push? (b : Buf) : Obs → Option Byte
  | .push c v => if c = b then some v else none
  | _ => none

/-- A successful pop from buffer `b`. -/
def Obs.pop? (b : Buf) : Obs → Option Byte
  | .pop c v => if c = b then some v else none
  | _ => none

/-- The byte of a successful `SEND`: an `RSP` entry whose word is `SEND byte` and whose response has `OK` = 1
(R64, R117). -/
def Obs.sent? : Obs → Option Byte
  | .rsp w r =>
    match decode w with
    | .ok (.send v) => if r.getLsbD 12 then some v else none
    | _ => none
  | _ => none

/-- The byte of a `TRYRECV` that returned one: an `RSP` entry whose word is `TRYRECV` and whose response has
`OK` = 1 (R64). -/
def Obs.got? : Obs → Option Byte
  | .rsp w r =>
    match decode w with
    | .ok .tryRecv => if r.getLsbD 12 then some (r.extractLsb' 0 8) else none
    | _ => none
  | _ => none

/-- The entries since the last reset mark, newest first. -/
def sinceReset : List Obs → List Obs
  | [] => []
  | o :: l => if o = .reset then [] else o :: sinceReset l

/-- A trace of the whole run, in order. -/
def traceOf {α : Type} (f : Obs → Option α) (l : List Obs) : List α := (l.filterMap f).reverse

/-- A trace since the last reset, in order. -/
def recent {α : Type} (f : Obs → Option α) (l : List Obs) : List α := traceOf f (sinceReset l)

/-- `RSP`, `WIRE`, `FC`, `RICFG`, `GRANT` (R11). -/
def State.rspTrace (s : State) : List (CmdWord × RspWord) := traceOf Obs.rsp? s.log
def State.wireTrace (s : State) : List Byte := traceOf Obs.wire? s.log
def State.fcTrace (s : State) : List FcEvent := traceOf Obs.fc? s.log
def State.riCfgTrace (s : State) : List RiCfg := traceOf Obs.riCfg? s.log
def State.grantTrace (s : State) : List Grant := traceOf Obs.grant? s.log

/-- The bytes successfully pushed to, and popped from, buffer `b` since the last reset, in order (R85). -/
def State.pushed (s : State) (b : Buf) : List Byte := recent (Obs.push? b) s.log
def State.popped (s : State) (b : Buf) : List Byte := recent (Obs.pop? b) s.log

/-- The bytes of `WIRE`, of successful `SEND`s and of `TRYRECV`s that returned one, since the last reset. -/
def State.wired (s : State) : List Byte := recent Obs.wire? s.log
def State.sent (s : State) : List Byte := recent Obs.sent? s.log
def State.got (s : State) : List Byte := recent Obs.got? s.log

/-- The flow-control events since the last reset. -/
def State.fcRecent (s : State) : List FcEvent := recent Obs.fc? s.log

/-- The slots from `i` on, `k` of them, the index wrapping at `n` (R43). -/
def slotsFrom {w : Nat} (n : Nat) (m : Memory w) : Nat → Nat → List (Option (BitVec w))
  | 0, _ => []
  | k + 1, i => m.read i :: slotsFrom n m k (wrap n ((i : Int) + 1))

/-- The queued bytes of buffer `b`, oldest first: the slots `[tail, head)` (R54). -/
def State.queue (s : State) (b : Buf) : List (Option Byte) :=
  slotsFrom (s.slots b) (s.mem b) (s.count b) (s.tail b)

/-- The tags of the queued receive bytes, oldest first. -/
def State.tagQueue (s : State) : List (Option ErrBits) :=
  slotsFrom (s.slots .rx) s.rxTag (s.count .rx) (s.tail .rx)

/-- Whether a pause is outstanding after a sequence of flow-control events, none if the events do not
alternate starting with `PAUSE` (R102). -/
def pausedAfter : Option Bool → List FcEvent → Option Bool
  | p, [] => p
  | p, e :: l =>
    match p, e with
    | some false, .pause => pausedAfter (some true) l
    | some true, .resume => pausedAfter (some false) l
    | _, _ => none

end Sys2Proof.Machine
end

