-- ==== Sys2Proof/Safety.lean ====
section
/-!
DEFINITION. The terms in which claims are made: the registers as one record, what "unchanged" means, the
invariant every reachable state has, and what the environment's protocol assumptions ask of a frame.
-/

namespace Sys2Proof.Machine

/-! ## Frames -/

/-- Every register and flag of R39, and the parameters: all state of the block but the slot arrays. -/
structure Regs where
  params : Params
  inited : Bool
  headRx : Nat
  tailRx : Nat
  headTx : Nat
  tailTx : Nat
  ovf : Bool
  penderr : ErrBits
  dreArmed : DreState
  fcPaused : Bool
  rxcLvl : Level
  txcLvl : Level
  dreLvl : Level
  baud : Baud
  fmt : FmtBits
  rxEn : Bool
  txEn : Bool
deriving DecidableEq, Repr

/-- The registers of a state. -/
def State.regs (s : State) : Regs :=
  ⟨s.params, s.inited, s.headRx, s.tailRx, s.headTx, s.tailTx, s.ovf, s.penderr, s.dreArmed, s.fcPaused,
    s.rxcLvl, s.txcLvl, s.dreLvl, s.baud, s.fmt, s.rxEn, s.txEn⟩

/-- Every slot of the three storage spaces reads in `t` as in `s`. -/
def SameSlots (s t : State) : Prop :=
  (∀ i, t.rxMem.read i = s.rxMem.read i) ∧ (∀ i, t.rxTag.read i = s.rxTag.read i) ∧
    (∀ i, t.txMem.read i = s.txMem.read i)

/-- The outputs of `s` with the response `r` of a performed command (R61, R62). -/
def respondedOut (s : State) (r : RspWord) : Outputs :=
  { s.out with cmdReady := true, rspValid := true, rsp := r }

/-- The command has left the port; every other input is driven as before (R60; the model's choice, log 3). -/
def consumedInputs (s : State) : Inputs := { s.inp with cmd := { s.inp.cmd with valid := false } }

/-- The command was performed with response `r`: `r` is driven and recorded, after the entries `extra` of what the
command did besides; the command has left the port; the environment's script is untouched (R60, R61). What is said of
the inputs and of the order in the log is the model's choice (log 3, log 4). -/
def Responded (s : State) (r : RspWord) (extra : List Obs) (t : State) : Prop :=
  t.out = respondedOut s r ∧ t.inp = consumedInputs s ∧ t.script = s.script ∧ t.rest = s.rest ∧ t.draws = s.draws ∧
    t.log = .rsp s.inp.cmd.word r :: (extra ++ s.log)

/-- `t` is `s` with the response `r`, and no register and no slot changed (R69). -/
def OnlyResponded (s : State) (r : RspWord) (t : State) : Prop :=
  t.regs = s.regs ∧ SameSlots s t ∧ Responded s r [] t

/-- `Free(RX)` of cursors in range, as a formula of its own: `(N - 1) - (h - t mod N)` (R75, R78). -/
def freeBetween (n h t : Nat) : Nat := (n - 1) - (h + n - t) % n

/-- The words R68 lists as illegal: a reserved `op`, a must-be-zero bit set, or `SETFMT` with `PMODE` = 1. -/
def IllegalWord (w : CmdWord) : Prop :=
  (w.extractLsb' 28 4 = 0x0#4 ∨ w.extractLsb' 28 4 = 0xE#4 ∨ w.extractLsb' 28 4 = 0xF#4) ∨
  (w.extractLsb' 28 4 = 0x1#4 ∧ w.extractLsb' 26 2 ≠ 0#2) ∨
  (w.extractLsb' 28 4 = 0x2#4 ∧ (w.extractLsb' 24 4 ≠ 0#4 ∨ w.extractLsb' 8 16 ≠ 0#16)) ∨
  ((w.extractLsb' 28 4 = 0x3#4 ∨ w.extractLsb' 28 4 = 0x4#4 ∨ w.extractLsb' 28 4 = 0x5#4) ∧
    (w.extractLsb' 24 4 ≠ 0#4 ∨ w.extractLsb' 0 24 ≠ 0#24)) ∨
  ((w.extractLsb' 28 4 = 0x6#4 ∨ w.extractLsb' 28 4 = 0x7#4 ∨ w.extractLsb' 28 4 = 0x8#4) ∧
    (w.extractLsb' 26 2 ≠ 0#2 ∨ w.extractLsb' 0 24 ≠ 0#24)) ∨
  ((w.extractLsb' 28 4 = 0x9#4 ∨ w.extractLsb' 28 4 = 0xA#4 ∨ w.extractLsb' 28 4 = 0xB#4) ∧
    (w.extractLsb' 25 3 ≠ 0#3 ∨ w.extractLsb' 0 24 ≠ 0#24)) ∨
  (w.extractLsb' 28 4 = 0xC#4 ∧ w.extractLsb' 24 4 ≠ 0#4) ∨
  (w.extractLsb' 28 4 = 0xD#4 ∧
    (w.extractLsb' 24 4 ≠ 0#4 ∨ w.extractLsb' 5 19 ≠ 0#19 ∨ w.extractLsb' 2 2 = 1#2))

/-! ## The invariant -/

/-- The cursors of `b` are slot indices (R14). -/
def State.CursorsInRange (s : State) (b : Buf) : Prop := s.head b < s.slots b ∧ s.tail b < s.slots b

/-- Every queued slot was written since the last reset: the slots `[tail, head)` of `b` (R54). -/
def State.QueueWritten (s : State) (b : Buf) : Prop := ∀ x ∈ s.queue b, x ≠ none

/-- What holds before `INIT`: the reset values of R39 but for the slot arrays (R171). -/
def State.Idle (s : State) : Prop :=
  s.regs = (State.resetWith s.params).regs

/-- What every reachable state has. -/
structure State.Inv (s : State) : Prop where
  /-- R14, R43 -/
  rxCursors : s.CursorsInRange .rx
  txCursors : s.CursorsInRange .tx
  /-- The canonical form of the three spaces, and their bounds (R40, R43). -/
  rxMemWf : s.rxMem.wf = true ∧ s.rxMem.inBounds s.params.nRx = true
  rxTagWf : s.rxTag.wf = true ∧ s.rxTag.inBounds s.params.nRx = true
  txMemWf : s.txMem.wf = true ∧ s.txMem.inBounds s.params.nTx = true
  /-- No queued slot is unwritten (R54). -/
  rxWritten : s.QueueWritten .rx
  tagWritten : ∀ x ∈ s.tagQueue, x ≠ none
  txWritten : s.QueueWritten .tx
  /-- `OVF` = 1 implies `IsFull(RX)` (R93). -/
  ovfFull : s.ovf = true → s.isFull .rx = true
  /-- DISARMED implies `IsEmpty(TX)` (R113). -/
  disarmedEmpty : s.dreArmed = .disarmed → s.isEmpty .tx = true
  /-- R102, and R22 where flow control is absent. -/
  runningAboveLow : s.params.fcEn = true → s.fcPaused = false → s.params.lowWm < s.free .rx
  pausedBelowHigh : s.params.fcEn = true → s.fcPaused = true → s.free .rx < s.params.highWm
  fcAbsent : s.params.fcEn = false → s.fcPaused = false
  /-- `PMODE` = 1 is never stored (R30). -/
  fmtLegal : fmtLegal s.fmt = true
  /-- Before `INIT` everything is at its reset value (R171); after it both directions are enabled (R31). -/
  idleBeforeInit : s.inited = false → s.Idle
  enabledAfterInit : s.inited = true → s.rxEn = true ∧ s.txEn = true

/-! ## What the traces have to do with the state -/

/-- Conservation and order of one buffer since the last reset: what was pushed is what was popped followed by
what is queued (R85, R86). -/
def State.Fifo (s : State) (b : Buf) : Prop :=
  (s.pushed b).map some = (s.popped b).map some ++ s.queue b

/-- The transmit traces since the last reset: successful `SEND`s are the pushes, `WIRE` the pops (R117). -/
def State.TxTraces (s : State) : Prop := s.sent = s.pushed .tx ∧ s.wired = s.popped .tx

/-- The receive traces since the last reset: the bytes `TRYRECV` returned are the pops (R95). -/
def State.RxTraces (s : State) : Prop := s.got = s.popped .rx

/-- The flow-control events since the last reset alternate, `PAUSE` first, and a pause is outstanding exactly
while `FC_PAUSED` = 1 (R102). -/
def State.FcTraces (s : State) : Prop := pausedAfter (some false) s.fcRecent = some s.fcPaused

/-! ## The environment's protocol (R36, R37, R60) -/

/-- P1: a raised `ri_rxc_req` stays raised until the block reads the data register (R36). P2 and the rest of P1
need no premise: the step itself lowers the two requests (log 3). -/
def Frame.keepsRequest (f : Frame) (i : Inputs) : Prop :=
  i.rx.req = true → ∀ p, f.rx = some p → p.req = true

/-- The environment never drives `rst` to 1: no frame of the script nor of a loop does, and what follows is a loop. -/
def State.NeverResets (s : State) : Prop :=
  s.inp.rst = false ∧ (∀ f ∈ s.script, f.rst ≠ some true) ∧
    ∃ f fs, s.rest = .loop f fs ∧ f.rst ≠ some true ∧ ∀ g ∈ fs, g.rst ≠ some true

/-- FG does not change a presented command before it is performed (R60). -/
def Frame.keepsCommand (f : Frame) (i : Inputs) : Prop := i.cmd.valid = true → ∀ p, f.cmd = some p → p = i.cmd

/-! ## Runs -/

/-- `n` steps. -/
def runSteps : Nat → State → Host.Outcome State Fault Refusal
  | 0, s => .next s
  | n + 1, s =>
    match step s with
    | .next t => runSteps n t
    | .fault r => .fault r
    | .refused r => .refused r

end Sys2Proof.Machine
end

