-- ==== Sys2Proof/Certificates/Slice0/Obligations.lean ====
section
/-!
DEFINITION. The statements for the provers. Each says which rule of spec/ it formalises; "the model's choice" names
a log entry.
-/

open Sys2Proof Sys2Proof.Machine

/-! ## Encoding -/

/-- Every well-formed operation, with every operand at every value its encoding admits, decodes from its own code
(R55 to R59, R66). -/
def Obligations.DecodeInvertsEncode : Prop :=
  ∀ i : Instr, i.wellFormed = true → decodeCode (encode i) = .ok i

/-- A code that decodes decodes to a well-formed operation, and is that operation's only code: no bit of an accepted
word is ignored (R58, R59). -/
def Obligations.EncodeInvertsDecode : Prop :=
  ∀ (c : Code) (i : Instr), decodeCode c = .ok i → i.wellFormed = true ∧ encode i = c

/-- R58: a word is the command of a row iff its masked bits are the row's pattern (and, for `SETFMT`, `cmd[3:2]` is
not 1); no word hits two rows; a word that hits none is no command. -/
def Obligations.DecodeFollowsMatchMaskTable : Prop :=
  (∀ (w : CmdWord) (r : CmdRow), r ∈ cmdRows →
    ((r.hits w = true ∧ ¬ (r.mnemonic = "SETFMT" ∧ w.extractLsb' 2 2 = 1#2)) ↔
      ∃ i, decode w = .ok i ∧ i.mnemonic = r.mnemonic)) ∧
  (∀ (w : CmdWord) (r q : CmdRow), r ∈ cmdRows → q ∈ cmdRows → r.hits w = true → q.hits w = true → r = q) ∧
  (∀ w : CmdWord, (∀ r ∈ cmdRows, r.hits w = false) → ∀ i, decode w ≠ .ok i)

/-- R56: every operand is an unsigned field taken straight from the word. -/
def Obligations.OperandsAreFieldsOfTheWord : Prop :=
  ∀ w : CmdWord,
    (∀ l b, decode w = .ok (.init l b) → l = w.extractLsb' 24 2 ∧ b = w.extractLsb' 0 24) ∧
    (∀ v, decode w = .ok (.send v) → v = w.extractLsb' 0 8) ∧
    (∀ l, decode w = .ok (.setRxcLvl l) ∨ decode w = .ok (.setTxcLvl l) ∨ decode w = .ok (.setDreLvl l) →
      l = w.extractLsb' 24 2) ∧
    (∀ b, decode w = .ok (.isEmpty b) ∨ decode w = .ok (.isFull b) ∨ decode w = .ok (.free b) →
      b = if w.getLsbD 24 then .tx else .rx) ∧
    (∀ b, decode w = .ok (.setBaud b) → b = w.extractLsb' 0 24) ∧
    (∀ f, decode w = .ok (.setFmt f) → f = w.extractLsb' 0 5 ∧ fmtChsize f = w.extractLsb' 0 2 ∧
      fmtPmode f = w.extractLsb' 2 2 ∧ fmtSbmode f = w.getLsbD 4)

/-- Words written out from R55 and R57, one per family (vector V-ENC-1 of the spec's 95_test_vectors.md). -/
def Obligations.SpecWordsDecode : Prop :=
  decode 0x1201C200#32 = .ok (.init 2#2 115200#24) ∧ decode 0x20000048#32 = .ok (.send 0x48#8) ∧
  decode 0x30000000#32 = .ok .tryRecv ∧ decode 0x63000000#32 = .ok (.setRxcLvl 3#2) ∧
  decode 0x91000000#32 = .ok (.isEmpty .tx) ∧ decode 0xD000001B#32 = .ok (.setFmt 0x1B#5) ∧
  decode 0x00000000#32 = .reject .reservedOp ∧ decode 0xD0000004#32 = .reject .reservedPmode ∧
  decodeGrant 0b10#2 = .ok .rxcEvent ∧ decodeGrant 0b11#2 = .ok .dreEvent

/-- R68: the illegal words are exactly those listed; one that is presented and granted is refused with `ERRC` = 1,
is no trap and no no-op with `OK` = 1. -/
def Obligations.IllegalWordsAreRefused : Prop :=
  (∀ w : CmdWord, IllegalWord w ↔ ∀ i, decode w ≠ .ok i) ∧ IllegalWord 0x00000000#32 ∧ IllegalWord 0xFFFFFFFF#32 ∧
  (∀ s : State, s.sample.inp.rst = false → s.sample.arbitrate = .fg → IllegalWord s.sample.inp.cmd.word →
    ∃ t, step s = .next t ∧ t.regs = s.regs ∧ SameSlots s t ∧
      t.out = respondedOut (s.sample.beginOp .fg) 0xA000#16)

/-- R63: the response of a granted command carries the code of its cause, the illegal encoding first; with no cause
`ERR` and `ERRC` are 0. -/
def Obligations.RefusalCodesFollowTheCause : Prop :=
  ∀ s : State, s.sample.inp.rst = false → s.sample.arbitrate = .fg →
    ∃ t, step s = .next t ∧
      (IllegalWord s.sample.inp.cmd.word → t.out.rsp = 0xA000#16) ∧
      (¬ IllegalWord s.sample.inp.cmd.word → s.inited = false → s.sample.inp.cmd.word.extractLsb' 28 4 ≠ 0x1#4 →
        t.out.rsp = 0xC000#16) ∧
      (¬ IllegalWord s.sample.inp.cmd.word → s.inited = true → s.sample.inp.cmd.word.extractLsb' 28 4 = 0x1#4 →
        t.out.rsp = 0xE000#16) ∧
      (¬ IllegalWord s.sample.inp.cmd.word →
        (s.inited = true ↔ s.sample.inp.cmd.word.extractLsb' 28 4 ≠ 0x1#4) →
        (Rsp.ofWord t.out.rsp).err = false ∧ (Rsp.ofWord t.out.rsp).errc = 0#2)

/-- R69: a step that answers `ERR` = 1 changes no state element, accesses no slot, performs no Register Interface
transaction, emits no flow-control event; the command is consumed, the traces get their `GRANT` and `RSP` entries
and no other, and the response is `ERR` and a code alone. -/
def Obligations.RefusedCommandChangesNothing : Prop :=
  ∀ s t : State, step s = .next t → t.out.rspValid = true → (Rsp.ofWord t.out.rsp).err = true →
    t.regs = s.regs ∧ SameSlots s t ∧ t.out.riRxRd = false ∧ t.out.riTxWr = false ∧
    t.out.fcPause = false ∧ t.out.fcResume = false ∧ t.out.cmdReady = true ∧
    t.rspTrace = s.rspTrace ++ [(s.sample.inp.cmd.word, t.out.rsp)] ∧ t.grantTrace = s.grantTrace ++ [.fg] ∧
    t.wireTrace = s.wireTrace ∧ t.fcTrace = s.fcTrace ∧ t.riCfgTrace = s.riCfgTrace ∧
    (t.out.rsp = 0xA000#16 ∨ t.out.rsp = 0xC000#16 ∨ t.out.rsp = 0xE000#16)

/-- R62: building a response word from its fields and reading the fields at their positions are inverse. -/
def Obligations.ResponseFieldsAndWordAgree : Prop :=
  (∀ r : Rsp, Rsp.ofWord r.word = r) ∧ (∀ w : RspWord, (Rsp.ofWord w).word = w)

/-! ## The step and the arbiter -/

/-- When the sampled command word decodes to an instruction and FG is granted, a step is `exec` of it, between the
beginning and the end every operation has (R10, R59, R60). -/
def Obligations.StepRunsTheDecodedCommand : Prop :=
  ∀ (s : State) (i : Instr), s.sample.inp.rst = false → s.sample.arbitrate = .fg →
    decode s.sample.inp.cmd.word = .ok i →
    step s = endOutcome s.sample (exec i (s.sample.beginOp .fg))

/-- When a handler event is granted a step is `exec` of it; when nothing is granted a step performs nothing
(R10, R65, R66). That it leaves the inputs as driven is the model's choice (log 2), and what `ri_tx_data` shows between
writes (log 7). -/
def Obligations.StepRunsTheGrantedEvent : Prop :=
  ∀ s : State, s.sample.inp.rst = false →
    (s.sample.arbitrate = .rxcEvent → step s = endOutcome s.sample (exec .rxcEvent (s.sample.beginOp .rxcEvent))) ∧
    (s.sample.arbitrate = .dreEvent → step s = endOutcome s.sample (exec .dreEvent (s.sample.beginOp .dreEvent))) ∧
    (s.sample.arbitrate = .idle → ∃ t, step s = .next t ∧ t.regs = s.regs ∧ SameSlots s t ∧ t.inp = s.sample.inp ∧
      t.out = Outputs.begin .idle s.out)

/-- R149, R150, R151: from the sampled inputs and the registers at the start of a step, what the step grants and
performs; a choice with no memory, so two states that agree on those grant alike. In a state with the invariant the
second condition of R150 is the first. -/
def Obligations.ArbiterGrantsByLevel : Prop :=
  (∀ s t : State, step s = .next t → s.sample.inp.rst = false →
    let rxc := s.inited = true ∧ s.sample.inp.rx.req = true ∧ s.rxcLvl ≠ 0#2
    let dre := s.inited = true ∧ s.sample.inp.dreReq = true ∧ s.dreArmed = .armed ∧ s.dreLvl ≠ 0#2
    (s.Inv → (dre ↔ s.sample.inp.dreReq = true ∧ s.riCfg.dreLvl ≠ 0#2)) ∧
    (rxc ∧ (¬ dre ∨ s.dreLvl.toNat ≤ s.rxcLvl.toNat) → t.out.grant = .rxcEvent ∧
      endOutcome s.sample (exec .rxcEvent (s.sample.beginOp .rxcEvent)) = .next t) ∧
    (dre ∧ (¬ rxc ∨ s.rxcLvl.toNat < s.dreLvl.toNat) → t.out.grant = .dreEvent ∧
      endOutcome s.sample (exec .dreEvent (s.sample.beginOp .dreEvent)) = .next t) ∧
    (¬ rxc ∧ ¬ dre ∧ s.sample.inp.cmd.valid = true → t.out.grant = .fg ∧
      (∀ i, decode s.sample.inp.cmd.word = .ok i →
        endOutcome s.sample (exec i (s.sample.beginOp .fg)) = .next t) ∧
      (IllegalWord s.sample.inp.cmd.word → t.out.rsp = 0xA000#16)) ∧
    (¬ rxc ∧ ¬ dre ∧ s.sample.inp.cmd.valid = false →
      t.out.grant = .idle ∧ t.out.rspValid = false ∧ t.regs = s.regs ∧ SameSlots s t)) ∧
  (∀ s t s' t' : State, step s = .next t → step s' = .next t' → s.sample.inp = s'.sample.inp →
    s.inited = s'.inited → s.rxcLvl = s'.rxcLvl → s.dreLvl = s'.dreLvl → s.dreArmed = s'.dreArmed →
    t.out.grant = t'.out.grant)

/-- The two handler events touch disjoint state, so the tie-break of R152 changes no end state: in either order they
leave the same registers, slots and inputs (R156). That an event lowers the request it serves is the model's choice
(log 3). -/
def Obligations.HandlerEventsCommute : Prop :=
  ∀ s a b c d : State, exec .rxcEvent s = .next a → exec .dreEvent a = .next b →
    exec .dreEvent s = .next c → exec .rxcEvent c = .next d →
    b.regs = d.regs ∧ SameSlots b d ∧ b.inp = d.inp

/-- R153: while a handler event is pending, a presented command waits untouched and unanswered; if FG keeps the
handshake of R60 it is the command that was presented before the step. -/
def Obligations.HandlersPreemptTheForeground : Prop :=
  ∀ s : State, s.sample.inp.rst = false → s.sample.handlerPending = true →
    ∃ t, step s = .next t ∧ t.inp.cmd = s.sample.inp.cmd ∧ t.out.cmdReady = false ∧ t.out.rspValid = false ∧
      t.out.grant ≠ .fg ∧
      (s.nextFrame.keepsCommand s.inp → s.inp.cmd.valid = true → t.inp.cmd = s.inp.cmd)

/-- P1 as the model has it (R36, log 3): a raised `ri_rxc_req` that PERIPH keeps raised is raised after every step
that does not read the data register, and is 0 after the step that does; `ri_dre_req` is 0 after a step that writes
and as sampled after every other. -/
def Obligations.RequestsStayUntilServed : Prop :=
  ∀ s t : State, step s = .next t →
    (t.out.riRxRd = true → t.inp.rx.req = false) ∧
    (s.nextFrame.keepsRequest s.inp → s.inp.rx.req = true → t.out.riRxRd = false →
      t.inp.rx.req = true) ∧
    (t.out.riTxWr = true → t.inp.dreReq = false) ∧ (t.out.riTxWr = false → t.inp.dreReq = s.sample.inp.dreReq)

/-- R11: what each step appends to the five traces. `GRANT` gets one entry a step; `RSP`, `WIRE` and `FC` an entry
exactly when the port shows one. A reset appends nothing (R170). The `RICFG` clause is the model's choice (log 8): one
entry of all seven driven values, at the end of the step that changed one. -/
def Obligations.TracesRecordTheOutputs : Prop :=
  ∀ s t : State, step s = .next t →
    (s.sample.inp.rst = true → t.rspTrace = s.rspTrace ∧ t.wireTrace = s.wireTrace ∧ t.fcTrace = s.fcTrace ∧
      t.riCfgTrace = s.riCfgTrace ∧ t.grantTrace = s.grantTrace) ∧
    (s.sample.inp.rst = false →
      t.grantTrace = s.grantTrace ++ [t.out.grant] ∧
      t.rspTrace = s.rspTrace ++ (if t.out.rspValid then [(s.sample.inp.cmd.word, t.out.rsp)] else []) ∧
      t.wireTrace = s.wireTrace ++ (if t.out.riTxWr then t.out.riTxData.toList else []) ∧
      t.fcTrace = s.fcTrace ++ (if t.out.fcPause then [.pause] else []) ++ (if t.out.fcResume then [.resume] else []) ∧
      t.riCfgTrace = s.riCfgTrace ++ (if t.riCfg = s.riCfg then [] else [t.riCfg]))

/-- The data register is read exactly once per `RXC_EVENT`, whatever its outcome, and by no other operation; it is
written exactly by the `DRE_EVENT`s that find a byte queued (R45, R94, R107). -/
def Obligations.DataRegisterAccessedExactlyByEvents : Prop :=
  ∀ s t : State, step s = .next t → s.sample.inp.rst = false →
    (t.out.riRxRd = true ↔ t.out.grant = .rxcEvent) ∧
    (t.out.riTxWr = true ↔ t.out.grant = .dreEvent ∧ s.headTx ≠ s.tailTx) ∧
    (t.out.riTxWr = true → ∃ d, t.out.riTxData = some d ∧ ∀ v, s.txMem.read s.tailTx = some v → d = v)

/-- R61: a response is driven exactly in the steps that perform a command, refused ones included, and `rsp` is 0 in
every other; handler events drive none. -/
def Obligations.ResponseExactlyWhenCommandPerformed : Prop :=
  ∀ s t : State, step s = .next t →
    (t.out.rspValid = true ↔ t.out.grant = .fg) ∧ (t.out.cmdReady = true ↔ t.out.grant = .fg) ∧
    (t.out.rspValid = false → t.out.rsp = 0#16) ∧
    (t.out.grant = .rxcEvent ∨ t.out.grant = .dreEvent → t.out.rspValid = false)

/-- The block never halts: from every state, under every environment, a step answers a next state (R12, R140). -/
def Obligations.StepNeverStops : Prop := ∀ s : State, ∃ t, step s = .next t

/-- R23: `INITED` is set by a performed `INIT` and by nothing else, and cleared by reset and by nothing else. -/
def Obligations.OnlyInitSetsAndOnlyResetClearsInited : Prop :=
  ∀ s t : State, step s = .next t →
    (s.inited = false → t.inited = true →
      t.out.grant = .fg ∧ ∃ l b, decode s.sample.inp.cmd.word = .ok (.init l b)) ∧
    (s.inited = true → t.inited = false → s.sample.inp.rst = true) ∧
    (s.sample.inp.rst = true → t.inited = false)

/-! ## The buffer primitives and queries -/

/-- R75: `Count(b)` is the cursor difference modulo N, in 0 to N-1, is 0 exactly for equal cursors, and N-1 for a
head just below the tail. -/
def Obligations.CountIsTheCursorDifference : Prop :=
  ∀ (s : State) (b : Buf), s.CursorsInRange b →
    s.count b = (if s.tail b ≤ s.head b then s.head b - s.tail b else s.head b + s.slots b - s.tail b) ∧
    s.count b = (s.head b + (s.slots b - s.tail b)) &&& (s.slots b - 1) ∧
    s.count b ≤ s.slots b - 1 ∧ (s.count b = 0 ↔ s.head b = s.tail b) ∧
    (s.head b = (s.tail b + (s.slots b - 1)) &&& (s.slots b - 1) → s.count b = s.slots b - 1)

/-- R77 (and R76): empty is equal cursors, that is a count of 0; full is a count of N-1, that is the advanced head meeting
the tail; never both. -/
def Obligations.EmptyAndFullByCount : Prop :=
  ∀ (s : State) (b : Buf), s.CursorsInRange b →
    (s.isEmpty b = true ↔ s.head b = s.tail b) ∧ (s.isEmpty b = true ↔ s.count b = 0) ∧
    (s.isFull b = true ↔ (s.head b + 1) &&& (s.slots b - 1) = s.tail b) ∧
    (s.isFull b = true ↔ s.count b = s.slots b - 1) ∧ ¬ (s.isEmpty b = true ∧ s.isFull b = true)

/-- R78: `Free(b)` is N-1 less the count, 0 exactly when full, N-1 exactly when empty, one less after a push that
succeeds, and the number of pushes in a row that succeed. -/
def Obligations.FreeCountsPushesThatSucceed : Prop :=
  ∀ (s : State) (b : Buf), s.CursorsInRange b →
    s.free b = s.slots b - 1 - s.count b ∧ s.free b ≤ s.slots b - 1 ∧ (s.free b = 0 ↔ s.isFull b = true) ∧
    (s.free b = s.slots b - 1 ↔ s.isEmpty b = true) ∧
    (∀ (v : Byte) (t : State), s.tryPush b v = some t → t.free b + 1 = s.free b) ∧
    (∀ vs : List Byte, (vs.foldlM (fun x v => State.tryPush x b v) s).isSome = true ↔ vs.length ≤ s.free b)

/-- `ISEMPTY b` and `ISFULL b` answer of the two cursors and write nothing (R82, R83). What is said of the inputs,
of the free-value counter and of the order in the log is the model's choice (log 3, log 4, log 5). -/
def Obligations.EmptyAndFullQueriesAnswer : Prop :=
  ∀ (s : State) (b : Buf), s.inited = true →
    (∃ t, exec (.isEmpty b) s = .next t ∧
      OnlyResponded s (if s.head b = s.tail b then 0x1000#16 else 0x0000#16) t) ∧
    (∃ t, exec (.isFull b) s = .next t ∧
      OnlyResponded s (if (s.head b + 1) % s.slots b = s.tail b then 0x1000#16 else 0x0000#16) t)

/-- `FREE b` answers the free space in `VAL` and writes nothing (R84). A free space above 255 does not fit; `VAL` is
then any value (the model's choice, log 6). What is said of the inputs, of the free-value counter and of the order in
the log is the model's choice (log 3, log 4, log 5). -/
def Obligations.FreeQueryAnswers : Prop :=
  ∀ (s : State) (b : Buf), s.inited = true → s.CursorsInRange b →
    ∃ (t : State) (v : Byte), exec (.free b) s = .next t ∧ OnlyResponded s (0x10#8 ++ v) t ∧
      (freeBetween (s.slots b) (s.head b) (s.tail b) < 256 →
        v.toNat = freeBetween (s.slots b) (s.head b) (s.tail b))

/-- `HASIN` answers whether the receive buffer is not empty, `HASOUT` whether the transmit buffer is not full;
neither writes anything, `OVF` included (R98, R110). What is said of the inputs, of the free-value counter and of
the order in the log is the model's choice (log 3, log 4, log 5). -/
def Obligations.InputAndOutputQueriesAnswer : Prop :=
  ∀ s : State, s.inited = true →
    (∃ t, exec .hasIn s = .next t ∧
      OnlyResponded s (if s.headRx = s.tailRx then 0x0000#16 else 0x1000#16) t) ∧
    (∃ t, exec .hasOut s = .next t ∧
      OnlyResponded s (if (s.headTx + 1) % s.params.nTx = s.tailTx then 0x0000#16 else 0x1000#16) t)

/-! ## The transmit path -/

/-- `SEND byte` with room: the byte goes to the slot under `head[TX]`, the head advances, the interrupt is armed,
`OK` = 1; nothing else changes (R105, R106, R41). What is said of the inputs, of the free-value counter and of the
order in the log is the model's choice (log 3, log 4, log 5). -/
def Obligations.SendQueuesAndArms : Prop :=
  ∀ (s : State) (v : Byte), s.inited = true → (s.headTx + 1) % s.params.nTx ≠ s.tailTx →
    ∃ t, exec (.send v) s = .next t ∧
      t.regs = { s.regs with headTx := (s.headTx + 1) % s.params.nTx, dreArmed := .armed } ∧
      (∀ i, i ≠ s.headTx → t.txMem.read i = s.txMem.read i) ∧ t.txMem.read s.headTx = some v ∧
      (∀ i, t.rxMem.read i = s.rxMem.read i) ∧ (∀ i, t.rxTag.read i = s.rxTag.read i) ∧
      Responded s 0x1000#16 [.push .tx v] t

/-- `SEND byte` on a full transmit buffer answers `OK` = 0 and changes nothing; it does not arm (R105, R145). What
is said of the inputs, of the free-value counter and of the order in the log is the model's choice (log 3, log 4,
log 5). -/
def Obligations.SendOnFullBufferBlocks : Prop :=
  ∀ (s : State) (v : Byte), s.inited = true → (s.headTx + 1) % s.params.nTx = s.tailTx →
    ∃ t, exec (.send v) s = .next t ∧ OnlyResponded s 0x0000#16 t

/-- `DRE_EVENT` with a byte queued: the byte under `tail[TX]` is written to the data register, the tail advances,
the interrupt stays as it is; no slot changes (R107, R80). What is said of the inputs, of the free-value counter and
of the order in the log is the model's choice (log 3, log 4, log 5). -/
def Obligations.DreEventWritesTheOldestByte : Prop :=
  ∀ s : State, s.headTx ≠ s.tailTx →
    ∃ t d, exec .dreEvent s = .next t ∧ (∀ v, s.txMem.read s.tailTx = some v → d = v) ∧
      t.regs = { s.regs with tailTx := (s.tailTx + 1) % s.params.nTx } ∧ SameSlots s t ∧
      t.out = { s.out with riTxWr := true, riTxData := some d } ∧ t.inp = { s.inp with dreReq := false } ∧
      t.script = s.script ∧ t.rest = s.rest ∧ t.draws = s.draws ∧ t.log = .wire d :: .pop .tx d :: s.log

/-- `DRE_EVENT` on an empty transmit buffer disarms the interrupt, writes no data register and changes nothing else
(R107, R108). What is said of the inputs, of the free-value counter and of the order in the log is the model's
choice (log 3, log 4, log 5). What is said of the inputs, of the free-value counter and of the order in the log is
the model's choice (log 3, log 4, log 5). -/
def Obligations.DreEventDisarmsOnEmptyBuffer : Prop :=
  ∀ s : State, s.headTx = s.tailTx →
    ∃ t, exec .dreEvent s = .next t ∧ t.regs = { s.regs with dreArmed := .disarmed } ∧ SameSlots s t ∧
      t.out = s.out ∧ t.inp = s.inp ∧ t.script = s.script ∧ t.rest = s.rest ∧ t.draws = s.draws ∧ t.log = s.log

/-- The disarm prevents the interrupt storm: the granted event that finds the buffer empty disarms, writes nothing, and
leaves no event pending although `ri_dre_req` stays 1; a further step that performs no `SEND` does not re-arm (R108,
R115). -/
def Obligations.DisarmStopsTheStorm : Prop :=
  (∀ s : State, s.sample.inp.rst = false → s.sample.arbitrate = .dreEvent → s.headTx = s.tailTx →
    ∃ t, step s = .next t ∧ t.dreArmed = .disarmed ∧ t.inp.dreReq = true ∧ t.out.riTxWr = false ∧
      t.drePending = false) ∧
  (∀ s t : State, step s = .next t → s.dreArmed = .disarmed →
    (t.out.grant = .fg → ∀ v, decode s.sample.inp.cmd.word ≠ .ok (.send v)) →
    t.dreArmed = .disarmed ∧ t.drePending = false)

/-- R109: only a successful `SEND` sets `DRE_ARMED`; a performed `INIT`, reset and the `DRE_EVENT` that finds the
buffer empty clear it; every other operation, `SETDRELVL` among them, leaves it. -/
def Obligations.OnlySendArms : Prop :=
  (∀ (i : Instr) (s t : State), exec i s = .next t →
    t.dreArmed = match i with
      | .send _ => if s.inited = true ∧ s.isFull .tx = false then .armed else s.dreArmed
      | .dreEvent => if s.isEmpty .tx = true then .disarmed else s.dreArmed
      | .init _ _ => if s.inited = true then s.dreArmed else .disarmed
      | _ => s.dreArmed) ∧
  (∀ s t : State, step s = .next t → s.sample.inp.rst = true → t.dreArmed = .disarmed)

/-! ## The receive path -/

/-- `RXC_EVENT` with room: the byte and the merged errors go to the slot under `head[RX]`, the head advances, the
pending errors are cleared, the data register is read; flow control pauses the sender exactly when the free space
has come to the low mark or below and no pause is out (R91, R92, R100). What is said of the inputs, of the
free-value counter and of the order in the log is the model's choice (log 3, log 4, log 5). -/
def Obligations.RxcEventBuffersTheByte : Prop :=
  ∀ s : State, s.CursorsInRange .rx → (s.headRx + 1) % s.params.nRx ≠ s.tailRx →
    let h := (s.headRx + 1) % s.params.nRx
    let pauses := s.params.fcEn = true ∧ s.fcPaused = false ∧ freeBetween s.params.nRx h s.tailRx ≤ s.params.lowWm
    ∃ t e, exec .rxcEvent s = .next t ∧
      e.getLsbD 0 = (s.penderr.getLsbD 0 || s.inp.rx.fe) ∧ e.getLsbD 1 = (s.penderr.getLsbD 1 || s.inp.rx.dor) ∧
      (∀ i, i ≠ s.headRx → t.rxMem.read i = s.rxMem.read i ∧ t.rxTag.read i = s.rxTag.read i) ∧
      t.rxMem.read s.headRx = some s.inp.rx.data ∧ t.rxTag.read s.headRx = some e ∧
      (∀ i, t.txMem.read i = s.txMem.read i) ∧ t.inp = { s.inp with rx := { s.inp.rx with req := false } } ∧
      t.script = s.script ∧ t.rest = s.rest ∧ t.draws = s.draws ∧
      (pauses → t.regs = { s.regs with headRx := h, penderr := 0#2, fcPaused := true } ∧
        t.out = { s.out with riRxRd := true, fcPause := true } ∧
        t.log = .fc .pause :: .push .rx s.inp.rx.data :: s.log) ∧
      (¬ pauses → t.regs = { s.regs with headRx := h, penderr := 0#2 } ∧ t.out = { s.out with riRxRd := true } ∧
        t.log = .push .rx s.inp.rx.data :: s.log)

/-- `RXC_EVENT` on a full receive buffer: the newest byte is dropped, `OVF` is set, the errors stay pending; cursors
and slots are unchanged; the data register is read all the same (R91, R93, R94). What is said of the inputs, of the
free-value counter and of the order in the log is the model's choice (log 3, log 4, log 5). -/
def Obligations.RxcEventOverflowDropsNewest : Prop :=
  ∀ s : State, (s.headRx + 1) % s.params.nRx = s.tailRx →
    ∃ t e, exec .rxcEvent s = .next t ∧
      e.getLsbD 0 = (s.penderr.getLsbD 0 || s.inp.rx.fe) ∧ e.getLsbD 1 = (s.penderr.getLsbD 1 || s.inp.rx.dor) ∧
      t.regs = { s.regs with ovf := true, penderr := e } ∧ SameSlots s t ∧
      t.out = { s.out with riRxRd := true } ∧ t.inp = { s.inp with rx := { s.inp.rx with req := false } } ∧
      t.script = s.script ∧ t.rest = s.rest ∧ t.draws = s.draws ∧ t.log = s.log

/-- `TRYRECV` with a byte queued: the byte under `tail[RX]` and its tag are answered with `OVF` as it was, the tail
advances, `OVF` is cleared; flow control resumes the sender exactly when a pause is out and the free space has come
to the high mark or above (R95, R96, R97, R101). What is said of the inputs, of the free-value counter and of the
order in the log is the model's choice (log 3, log 4, log 5). -/
def Obligations.TryRecvReturnsTheOldestByte : Prop :=
  ∀ s : State, s.inited = true → s.CursorsInRange .rx → s.headRx ≠ s.tailRx →
    let l := (s.tailRx + 1) % s.params.nRx
    let resumes := s.params.fcEn = true ∧ s.fcPaused = true ∧ s.params.highWm ≤ freeBetween s.params.nRx s.headRx l
    ∃ t r d e, exec .tryRecv s = .next t ∧
      (∀ v, s.rxMem.read s.tailRx = some v → d = v) ∧ (∀ g, s.rxTag.read s.tailRx = some g → e = g) ∧
      Rsp.ofWord r = { err := false, errc := 0#2, ok := true, nodata := false, ovf := s.ovf,
                       ore := e.getLsbD 1, fe := e.getLsbD 0, val := d } ∧
      SameSlots s t ∧ t.inp = consumedInputs s ∧ t.script = s.script ∧ t.rest = s.rest ∧ t.draws = s.draws ∧
      (resumes → t.regs = { s.regs with tailRx := l, ovf := false, fcPaused := false } ∧
        t.out = { respondedOut s r with fcResume := true } ∧
        t.log = .rsp s.inp.cmd.word r :: .fc .resume :: .pop .rx d :: s.log) ∧
      (¬ resumes → t.regs = { s.regs with tailRx := l, ovf := false } ∧ t.out = respondedOut s r ∧
        t.log = .rsp s.inp.cmd.word r :: .pop .rx d :: s.log)

/-- `TRYRECV` on an empty receive buffer answers `NODATA` with `OVF` as it was, and clears `OVF`; nothing else
changes (R95, R97). What is said of the inputs, of the free-value counter and of the order in the log is the model's
choice (log 3, log 4, log 5). What is said of the inputs, of the free-value counter and of the order in the log is
the model's choice (log 3, log 4, log 5). -/
def Obligations.TryRecvOnEmptyBuffer : Prop :=
  ∀ s : State, s.inited = true → s.headRx = s.tailRx →
    ∃ t, exec .tryRecv s = .next t ∧ t.regs = { s.regs with ovf := false } ∧ SameSlots s t ∧
      Responded s (if s.ovf then 0x0C00#16 else 0x0800#16) [] t

/-- R97: every performed `TRYRECV` reports `OVF` and clears it, byte or no byte; no other command clears it and none
reads it: its response is the same whatever `OVF` is. -/
def Obligations.OverflowFlagUntilInspected : Prop :=
  (∀ s t : State, s.inited = true → exec .tryRecv s = .next t →
    (Rsp.ofWord t.out.rsp).ovf = s.ovf ∧ t.ovf = false) ∧
  (∀ (i : Instr) (s t : State), s.Inv → exec i s = .next t → i ≠ .tryRecv → s.ovf = true → t.ovf = true) ∧
  (∀ (i : Instr) (s t u : State) (o : Bool), i ≠ .tryRecv → exec i s = .next t →
    exec i { s with ovf := o } = .next u → u.out = t.out)

/-! ## Initialisation and configuration -/

/-- `INIT lvl, baud` from the not-initialised state: every register takes the "after `INIT`" value of R39, the slot
arrays are unchanged, `OK` = 1 (R121). What is said of the inputs, of the free-value counter and of the order in the
log is the model's choice (log 3, log 4, log 5). -/
def Obligations.InitSetsUpTheHandle : Prop :=
  ∀ (s : State) (lvl : Level) (baud : Baud), s.inited = false →
    ∃ t, exec (.init lvl baud) s = .next t ∧ SameSlots s t ∧ Responded s 0x1000#16 [] t ∧
      t.regs = { params := s.params, inited := true, headRx := 0, tailRx := 0, headTx := 0, tailTx := 0,
                 ovf := false, penderr := 0#2, dreArmed := .disarmed, fcPaused := false,
                 rxcLvl := s.params.rxcInitLvl, txcLvl := 0#2, dreLvl := lvl, baud := baud, fmt := 0b00011#5,
                 rxEn := true, txEn := true } ∧
      t.riCfg.dreLvl = 0#2 ∧ t.rxcLvl ≠ 0#2

/-- R122: a legal `INIT` while `INITED` = 1 is refused with 0xE000 and changes nothing; only a reset makes `INIT`
available again. -/
def Obligations.ReinitIsRefused : Prop :=
  (∀ (s : State) (lvl : Level) (baud : Baud), s.inited = true →
    ∃ t, exec (.init lvl baud) s = .next t ∧ t.regs = s.regs ∧ SameSlots s t ∧
      t.out = respondedOut s 0xE000#16) ∧
  (∀ s t : State, step s = .next t → s.inited = true → s.sample.inp.rst = false → t.inited = true)

/-- R123: while `INITED` = 0 every legal command but `INIT` is refused with 0xC000 and changes nothing, and no handler
event is granted whatever the requests show. -/
def Obligations.CommandsBeforeInitAreRefused : Prop :=
  (∀ (i : Instr) (s : State), i.isCommand = true → i.wellFormed = true → (∀ l b, i ≠ .init l b) →
    s.inited = false → ∃ t, exec i s = .next t ∧ t.regs = s.regs ∧ SameSlots s t ∧
      t.out = respondedOut s 0xC000#16) ∧
  (∀ s : State, s.inited = false → s.handlerPending = false) ∧
  (∀ s t : State, step s = .next t → s.inited = false → t.out.grant ≠ .rxcEvent ∧ t.out.grant ≠ .dreEvent)

/-- Each level setter writes its own level and nothing else, for every value; `SETDRELVL` neither arms nor disarms
and is driven only while armed (R124 to R127, R114). What is said of the inputs, of the free-value counter and of
the order in the log is the model's choice (log 3, log 4, log 5). -/
def Obligations.LevelSettersWriteOneLevel : Prop :=
  ∀ (s : State) (lvl : Level), s.inited = true →
    (∃ t, exec (.setRxcLvl lvl) s = .next t ∧ t.regs = { s.regs with rxcLvl := lvl } ∧ SameSlots s t ∧
      Responded s 0x1000#16 [] t ∧ t.riCfg = { s.riCfg with rxcLvl := lvl }) ∧
    (∃ t, exec (.setTxcLvl lvl) s = .next t ∧ t.regs = { s.regs with txcLvl := lvl } ∧ SameSlots s t ∧
      Responded s 0x1000#16 [] t ∧ t.riCfg = { s.riCfg with txcLvl := lvl }) ∧
    (∃ t, exec (.setDreLvl lvl) s = .next t ∧ t.regs = { s.regs with dreLvl := lvl } ∧ SameSlots s t ∧
      Responded s 0x1000#16 [] t ∧
      t.riCfg = { s.riCfg with dreLvl := if s.dreArmed = .armed then lvl else 0#2 })

/-- `SETBAUD` forwards every rate unchanged; `SETFMT` writes every legal format; with `PMODE` = 1 it is refused as
an illegal encoding and `FMT` is unchanged (R133 to R135). R135 speaks of the word; that `exec` answers the term, to
which no word decodes, in the same way is the model's choice (log 12). What is said of the inputs, of the free-value
counter and of the order in the log is the model's choice (log 3, log 4, log 5). -/
def Obligations.BaudAndFormatSetters : Prop :=
  ∀ s : State,
    (∀ baud, s.inited = true → ∃ t, exec (.setBaud baud) s = .next t ∧ t.regs = { s.regs with baud := baud } ∧
      SameSlots s t ∧ Responded s 0x1000#16 [] t ∧ t.riCfg = { s.riCfg with baud := baud }) ∧
    (∀ f : FmtBits, s.inited = true → f.extractLsb' 2 2 ≠ 1#2 → ∃ t, exec (.setFmt f) s = .next t ∧
      t.regs = { s.regs with fmt := f } ∧ SameSlots s t ∧ Responded s 0x1000#16 [] t ∧
      t.riCfg = { s.riCfg with fmt := f }) ∧
    (∀ f : FmtBits, f.extractLsb' 2 2 = 1#2 → ∃ t, exec (.setFmt f) s = .next t ∧ OnlyResponded s 0xA000#16 t)

/-! ## Whole-machine rules -/

/-- R161: what each operation may write. `head[RX]`, the receive slots and `PENDERR` are written by `RXC_EVENT` (and,
but for the slots, by a performed `INIT`), `tail[RX]` by `TRYRECV`, `head[TX]` and the transmit slots by `SEND`, `tail[TX]`
by `DRE_EVENT`; the three shared flags are set and cleared from the sides the table names; the control registers are
written by commands only. A performed `INIT` finds the cursors at 0 in a state with the invariant, so it moves none. -/
def Obligations.SingleWriterDiscipline : Prop :=
  ∀ (i : Instr) (s t : State), exec i s = .next t →
    let inits := s.inited = false ∧ ∃ l b, i = .init l b
    (t.headRx ≠ s.headRx → i = .rxcEvent ∨ (inits ∧ t.headRx = 0)) ∧
    ((∃ k, t.rxMem.read k ≠ s.rxMem.read k ∨ t.rxTag.read k ≠ s.rxTag.read k) → i = .rxcEvent) ∧
    (t.penderr ≠ s.penderr → i = .rxcEvent ∨ (inits ∧ t.penderr = 0#2)) ∧
    (t.tailRx ≠ s.tailRx → i = .tryRecv ∨ (inits ∧ t.tailRx = 0)) ∧
    (s.ovf = false → t.ovf = true → i = .rxcEvent) ∧ (s.ovf = true → t.ovf = false → i = .tryRecv ∨ inits) ∧
    (s.fcPaused = false → t.fcPaused = true → i = .rxcEvent) ∧
    (s.fcPaused = true → t.fcPaused = false → i = .tryRecv ∨ inits) ∧
    (t.headTx ≠ s.headTx → (∃ v, i = .send v) ∨ (inits ∧ t.headTx = 0)) ∧
    ((∃ k, t.txMem.read k ≠ s.txMem.read k) → ∃ v, i = .send v) ∧
    (t.tailTx ≠ s.tailTx → i = .dreEvent ∨ (inits ∧ t.tailTx = 0)) ∧
    (s.dreArmed = .disarmed → t.dreArmed = .armed → ∃ v, i = .send v) ∧
    (s.dreArmed = .armed → t.dreArmed = .disarmed → i = .dreEvent ∨ inits) ∧
    ((t.rxcLvl, t.txcLvl, t.dreLvl, t.baud, t.fmt, t.rxEn, t.txEn, t.inited) ≠
      (s.rxcLvl, s.txcLvl, s.dreLvl, s.baud, s.fmt, s.rxEn, s.txEn, s.inited) → i.isCommand = true) ∧
    t.params = s.params ∧
    (s.Inv → (t.tailRx ≠ s.tailRx → i = .tryRecv) ∧ (t.headTx ≠ s.headTx → ∃ v, i = .send v))

/-- The answers of `HASIN`, `HASOUT` and `FREE` go stale only in the safe direction: a handler event never fills the
transmit buffer and never empties the receive buffer; free receive space can only shrink and free transmit space only
grow (R187, R110). -/
def Obligations.AnswersStaySafeAcrossEvents : Prop :=
  ∀ (i : Instr) (s t : State), i.isCommand = false → s.CursorsInRange .rx → s.CursorsInRange .tx →
    exec i s = .next t →
    (s.isFull .tx = false → t.isFull .tx = false) ∧ (s.isEmpty .rx = false → t.isEmpty .rx = false) ∧
    t.free .rx ≤ s.free .rx ∧ s.free .tx ≤ t.free .tx

/-- `TXCLVL` is stored and driven and nothing else: two states that differ in it alone take steps that differ in it, in
what it drives and in the record of that alone (R125, R168). -/
def Obligations.TransmitCompleteLevelIsInert : Prop :=
  ∀ (s t u : State) (l : Level), step s = .next t → step { s with txcLvl := l } = .next u →
    u.out = t.out ∧ u.inp = t.inp ∧ SameSlots t u ∧ u.regs = { t.regs with txcLvl := u.txcLvl } ∧
    u.grantTrace = t.grantTrace ∧ u.rspTrace = t.rspTrace ∧ u.wireTrace = t.wireTrace

/-- Received bytes are data only: with another byte waiting, the same operation is granted, the same registers and
outputs result, and the transmit slots are the same; only receive slots differ (R53, R157). -/
def Obligations.ReceivedBytesAreNeverInterpreted : Prop :=
  ∀ (s t u : State) (d : Byte), step s = .next t →
    step { s with inp := { s.inp with rx := { s.inp.rx with data := d } } } = .next u →
    u.out = t.out ∧ u.regs = t.regs ∧ (∀ i, u.txMem.read i = t.txMem.read i) ∧ (∀ i, u.rxTag.read i = t.rxTag.read i) ∧
    (∀ i, i ≠ s.headRx → u.rxMem.read i = t.rxMem.read i) ∧ u.wireTrace = t.wireTrace

/-- R104: `fc_pause` is 1 exactly in the step of the `RXC_EVENT` that emits `PAUSE`, `fc_resume` exactly in the step of
the `TRYRECV` that emits `RESUME`, never both, and `fc_paused` shows the flag; with `FC_EN` = 0 neither is ever 1 and the
flag does not change to 1 (R99). -/
def Obligations.FlowControlPulses : Prop :=
  ∀ s t : State, step s = .next t →
    (t.out.fcPause = true ↔ t.fcTrace = s.fcTrace ++ [.pause]) ∧
    (t.out.fcResume = true ↔ t.fcTrace = s.fcTrace ++ [.resume]) ∧
    (t.out.fcPause = true → t.out.grant = .rxcEvent ∧ s.fcPaused = false ∧ t.fcPaused = true) ∧
    (t.out.fcResume = true → t.out.grant = .fg ∧ decode s.sample.inp.cmd.word = .ok .tryRecv ∧
      s.fcPaused = true ∧ t.fcPaused = false) ∧
    ¬ (t.out.fcPause = true ∧ t.out.fcResume = true) ∧ t.fcPausedOut = t.fcPaused ∧
    (s.params.fcEn = false → t.out.fcPause = false ∧ t.out.fcResume = false ∧ (t.fcPaused = true → s.fcPaused = true))

/-! ## Reset and invariants -/

/-- An edge with `rst` = 1 resets from any state, whatever the ports show: every register takes its reset value, nothing
is performed or answered, no trace gets an entry (R170). R39 leaves the slots' contents unspecified; that every slot
then reads as one nothing has written is the model's choice (log 5). -/
def Obligations.ResetFromAnyState : Prop :=
  ∀ s : State, s.sample.inp.rst = true →
    ∃ t, step s = .next t ∧ t.regs = (State.resetWith s.params).regs ∧ (∀ i, t.rxMem.read i = none) ∧
      (∀ i, t.rxTag.read i = none) ∧ (∀ i, t.txMem.read i = none) ∧ t.out = Outputs.reset ∧
      t.rspTrace = s.rspTrace ∧ t.wireTrace = s.wireTrace ∧ t.fcTrace = s.fcTrace ∧
      t.riCfgTrace = s.riCfgTrace ∧ t.grantTrace = s.grantTrace

/-- R172 (and R171): the values of every register and output after reset, for every legal choice of parameters; no
handler event is pending whatever the inputs; and the idle steps after a reset, however many, leave every output and
register so. -/
def Obligations.ResetValuesAndOutputs : Prop :=
  ∀ p : Params,
    (State.resetWith p).regs =
      { params := p, inited := false, headRx := 0, tailRx := 0, headTx := 0, tailTx := 0, ovf := false,
        penderr := 0#2, dreArmed := .disarmed, fcPaused := false, rxcLvl := 0#2, txcLvl := 0#2, dreLvl := 0#2,
        baud := 0#24, fmt := 0b00011#5, rxEn := false, txEn := false } ∧
    (State.resetWith p).out =
      { cmdReady := false, rspValid := false, rsp := 0#16, grant := .idle, fcPause := false, fcResume := false,
        riRxRd := false, riTxWr := false, riTxData := some 0#8 } ∧
    (State.resetWith p).riCfg =
      { rxcLvl := 0#2, txcLvl := 0#2, dreLvl := 0#2, baud := 0#24, fmt := 0b00011#5, rxEn := false, txEn := false } ∧
    (State.resetWith p).fcPausedOut = false ∧
    (∀ inp : Inputs, ({ State.resetWith p with inp := inp } : State).handlerPending = false) ∧
    (∀ s : State, s.regs = (State.resetWith p).regs → s.out = Outputs.reset → s.sample.inp.rst = false →
      s.sample.inp.cmd.valid = false →
      ∃ t, step s = .next t ∧ t.regs = s.regs ∧ t.out = Outputs.reset ∧ t.riCfg = (State.resetWith p).riCfg ∧
        t.fcPausedOut = false)

/-- The invariant, the two FIFO properties and the trace properties hold right after reset, for every legal choice of
parameters. -/
def Obligations.InvariantsAtReset : Prop :=
  ∀ p : Params, (State.resetWith p).Inv ∧ (State.resetWith p).Fifo .rx ∧ (State.resetWith p).Fifo .tx ∧
    (State.resetWith p).TxTraces ∧ (State.resetWith p).RxTraces ∧ (State.resetWith p).FcTraces

/-- Every step keeps the invariant: cursors in range, canonical slot storage, every queued slot written (R54), `OVF`
only on a full buffer (R93), DISARMED only on an empty one (R113), flow control between its marks (R102), no reserved
format (R30), the reset values before `INIT` (R171). -/
def Obligations.StepKeepsInvariant : Prop := ∀ s t : State, s.Inv → step s = .next t → t.Inv

/-- R117: `WIRE` is exactly the bytes of successful `SEND`s, in order, each once, minus the bytes still queued. Kept by
every step; a reset starts the count anew, its queued bytes lost. -/
def Obligations.WireCarriesTheSentBytes : Prop :=
  ∀ s t : State, s.Inv → s.sent.map some = s.wired.map some ++ s.queue .tx → step s = .next t →
    t.sent.map some = t.wired.map some ++ t.queue .tx

/-- Conservation and order in both buffers, kept by every step: what was pushed since reset is what was popped followed
by what is queued, the pops of the receive buffer are the bytes `TRYRECV` returned, and the queue holds `Count(b)` bytes,
at most N-1 (R85, R86). That each push and pop is recorded in the log is the model's choice (log 4). -/
def Obligations.BuffersAreFifo : Prop :=
  ∀ s t : State, s.Inv → s.Fifo .rx → s.Fifo .tx → s.RxTraces → s.TxTraces → step s = .next t →
    t.Fifo .rx ∧ t.Fifo .tx ∧ t.RxTraces ∧ t.TxTraces ∧
    t.count .rx + (t.popped .rx).length = (t.pushed .rx).length ∧
    t.count .tx + (t.popped .tx).length = (t.pushed .tx).length ∧
    t.count .rx ≤ t.slots .rx - 1 ∧ t.count .tx ≤ t.slots .tx - 1

/-- R102: the flow-control events since reset alternate strictly, `PAUSE` first, with a pause out exactly while
`FC_PAUSED` = 1, and the flag stays between the marks; every step keeps this. -/
def Obligations.FlowControlAlternates : Prop :=
  ∀ s t : State, s.Inv → s.FcTraces → step s = .next t →
    t.FcTraces ∧ (t.params.fcEn = true →
      (t.fcPaused = false → t.params.lowWm < t.free .rx) ∧ (t.fcPaused = true → t.free .rx < t.params.highWm))

/-! ## Runs -/

/-- `SENDSTRING` of at most `Free(TX)` bytes never spins: with no handler request in the way it returns true after one
step a byte, and its bytes are queued in order behind those already there (R111, R112). How `SENDSTRING` runs beside the
block, one step a byte, is the model's choice (log 11), as is that each `SEND` leaves the command port (log 3). -/
def Obligations.SendStringWithinFreeSpaceReturns : Prop :=
  ∀ (bs : List Byte) (s : State), s.inited = true → s.CursorsInRange .tx → s.script = [] → s.rest = .still → s.inp.rst = false →
    s.inp.rx.req = false → s.inp.dreReq = false → bs.length ≤ s.free .tx →
    ∃ t, sendString bs.length bs s = (.returned true, t) ∧ t.queue .tx = s.queue .tx ++ bs.map some

/-- `SENDSTRING` into a full buffer that nothing drains spins for ever: with `DRELVL` = 0 it is still running after any
number of steps, whatever PERIPH does (R112, R181). How `SENDSTRING` runs beside the block, its being the one driver of
the command port included, is the model's choice (log 11). -/
def Obligations.SendStringSpinsWhenUndrained : Prop :=
  ∀ (fuel : Nat) (b : Byte) (bs : List Byte) (s : State), s.inited = true → s.NeverResets →
    s.isFull .tx = true → s.dreLvl = 0#2 → (sendString fuel (b :: bs) s).1 = .running

/-- `SENDSTRING` before `INIT` returns false at its first byte and changes nothing; of the empty string it performs no
command and returns true (R111). How `SENDSTRING` runs beside the block is the model's choice (log 11). -/
def Obligations.SendStringBeforeInitFails : Prop :=
  (∀ (fuel : Nat) (b : Byte) (bs : List Byte) (s : State), s.inited = false → s.sample.inp.rst = false →
    ∃ t, sendString (fuel + 1) (b :: bs) s = (.returned false, t) ∧ t.regs = s.regs ∧ SameSlots s t) ∧
  (∀ (fuel : Nat) (s : State), sendString fuel [] s = (.returned true, s))

/-- A block whose environment stays still is quiescent within four steps: each request is served once, a presented
command once, and the disarm ends the rest (R12, R94, R108). That a request and a command are served once is the model's
choice (log 3: the step itself lowers the request and `cmd_valid`), as are how an environment that stays still is held in
State (log 2) and running by `settle` (log 11). -/
def Obligations.QuiescentWithinFourSteps : Prop :=
  ∀ s : State, s.script = [] → s.rest = .still → s.inp.rst = false → ∃ t, settle 4 s = .next t ∧ t.quiescent = true

/-- `ri_tx_data` is 0 after reset (R172) until the first write: a step that resets shows 0, a step that writes nothing
after one that wrote nothing shows what that one did, and a step that writes shows the byte it appends to `WIRE` (R34,
R35). That the port has no value in a step that writes nothing after one that wrote is the model's choice (log 7). -/
def Obligations.TransmitDataPortHolds : Prop :=
  ∀ s t : State, step s = .next t →
    (s.sample.inp.rst = true → t.out.riTxData = some 0#8) ∧
    (s.sample.inp.rst = false → t.out.riTxWr = false → s.out.riTxWr = false → t.out.riTxData = s.out.riTxData) ∧
    (s.sample.inp.rst = false → t.out.riTxWr = false → s.out.riTxWr = true → t.out.riTxData = none) ∧
    (t.out.riTxWr = true → ∃ d, t.out.riTxData = some d ∧ t.wireTrace = s.wireTrace ++ [d])

/-- R167: that FG progresses and that queued bytes drain are no facts of the block. After `INIT`, with `RXCLVL` not 0 and a
PERIPH that has a byte in every step, FG is never granted, however many steps are taken and whatever else is driven; under
a PERIPH that is never ready nothing is written; and a step in which no handler event is pending performs the presented
command. How an environment is held in State is the model's choice (log 2). -/
def Obligations.ProgressNeedsPeriphPremises : Prop :=
  (∀ (n : Nat) (s : State) (c : Option CmdPort) (d : Byte) (fe dor : Bool) (r : Option Bool),
    s.inited = true → s.rxcLvl ≠ 0#2 → s.script = [] →
    s.rest = .loop ⟨some false, c, some ⟨true, d, fe, dor⟩, r⟩ [] →
    ∃ t, runSteps n s = .next t ∧ t.rspTrace = s.rspTrace ∧ (0 < n → t.out.grant ≠ .fg ∧ t.out.grant ≠ .idle)) ∧
  (∀ (n : Nat) (s : State) (c : Option CmdPort) (x : Option RxPort), s.script = [] →
    s.rest = .loop ⟨some false, c, x, some false⟩ [] →
    ∃ t, runSteps n s = .next t ∧ t.wireTrace = s.wireTrace) ∧
  (∀ s : State, s.sample.inp.rst = false → s.sample.handlerPending = false → s.sample.inp.cmd.valid = true →
    ∃ t, step s = .next t ∧ t.out.grant = .fg ∧ t.out.cmdReady = true ∧
      t.rspTrace = s.rspTrace ++ [(s.sample.inp.cmd.word, t.out.rsp)])
end

