-- ==== Sys2Proof/Laws/Decode.lean ====
section
/-!
SUPPORT. The laws of the command format: packing three fields and reading them back, and the operand fields.
-/

namespace Sys2Proof

/-! ## Packing and reading the three fields (R55) -/

theorem opField_packCmd (op arg : BitVec 4) (imm : BitVec 24) : opField (packCmd op arg imm) = op := by
  unfold opField packCmd
  apply BitVec.eq_of_getLsbD_eq
  intro i hi
  simp only [BitVec.getLsbD_extractLsb', BitVec.getLsbD_append]
  interval_cases i <;> simp

theorem argField_packCmd (op arg : BitVec 4) (imm : BitVec 24) : argField (packCmd op arg imm) = arg := by
  unfold argField packCmd
  apply BitVec.eq_of_getLsbD_eq
  intro i hi
  simp only [BitVec.getLsbD_extractLsb', BitVec.getLsbD_append]
  interval_cases i <;> simp

theorem immField_packCmd (op arg : BitVec 4) (imm : BitVec 24) : immField (packCmd op arg imm) = imm := by
  unfold immField packCmd
  apply BitVec.eq_of_getLsbD_eq
  intro i hi
  simp only [BitVec.getLsbD_extractLsb', BitVec.getLsbD_append]
  interval_cases i <;> simp

/-- Every word is the packing of its three fields (R55). -/
theorem packCmd_fields (w : CmdWord) : packCmd (opField w) (argField w) (immField w) = w := by
  unfold opField argField immField packCmd
  apply BitVec.eq_of_getLsbD_eq
  intro i hi
  simp only [BitVec.getLsbD_extractLsb', BitVec.getLsbD_append]
  interval_cases i <;> simp

theorem decode_packCmd (op arg : BitVec 4) (imm : BitVec 24) :
    decode (packCmd op arg imm) = decodeFields op arg imm := by
  simp only [decode, opField_packCmd, argField_packCmd, immField_packCmd]

/-! ## Operand fields and their inverses -/

theorem argLevel_levelArg : ∀ l, argLevel (levelArg l) = l ∧ argLevelMbz (levelArg l) = 0#2 := by decide

theorem levelArg_argLevel : ∀ a, argLevelMbz a = 0#2 → levelArg (argLevel a) = a := by decide

theorem argBuf_bufArg (b : Buf) : argBuf (bufArg b) = b ∧ argBufMbz (bufArg b) = 0#3 := by cases b <;> decide

theorem bufArg_argBuf : ∀ a, argBufMbz a = 0#3 → bufArg (argBuf a) = a := by decide

theorem immFmt_fmtImm : ∀ f, immFmt (fmtImm f) = f ∧ immFmtMbz (fmtImm f) = 0#19 := by decide

theorem fmtImm_immFmt {m : BitVec 24} (h : immFmtMbz m = 0#19) : fmtImm (immFmt m) = m := by
  unfold immFmt fmtImm
  rw [← h]
  unfold immFmtMbz
  apply BitVec.eq_of_getLsbD_eq
  intro i hi
  simp only [BitVec.getLsbD_extractLsb', BitVec.getLsbD_append]
  interval_cases i <;> simp

theorem immByte_byteImm (b : Byte) : immByte (byteImm b) = b ∧ immByteMbz (byteImm b) = 0#16 := by
  constructor
  · unfold immByte byteImm
    apply BitVec.eq_of_getLsbD_eq
    intro i hi
    simp only [BitVec.getLsbD_extractLsb', BitVec.getLsbD_append]
    interval_cases i <;> simp
  · unfold immByteMbz byteImm
    apply BitVec.eq_of_getLsbD_eq
    intro i hi
    simp only [BitVec.getLsbD_extractLsb', BitVec.getLsbD_append]
    interval_cases i <;> simp

theorem byteImm_immByte {m : BitVec 24} (h : immByteMbz m = 0#16) : byteImm (immByte m) = m := by
  unfold immByte byteImm
  rw [← h]
  unfold immByteMbz
  apply BitVec.eq_of_getLsbD_eq
  intro i hi
  simp only [BitVec.getLsbD_extractLsb', BitVec.getLsbD_append]
  interval_cases i <;> simp

/-! ## What the decoder's guards can do -/

theorem guardMbz_ok {z : Bool} {i j : Instr} (h : guardMbz z i = .ok j) : z = true ∧ i = j := by
  unfold guardMbz at h
  split at h
  · next hz => injection h with h; exact ⟨hz, h⟩
  · cases h

theorem decodeSetFmt_ok {z : Bool} {f : FmtBits} {j : Instr} (h : decodeSetFmt z f = .ok j) :
    z = true ∧ fmtLegal f = true ∧ .setFmt f = j := by
  unfold decodeSetFmt at h
  split at h
  · next hz =>
    split at h
    · next hf => injection h with h; exact ⟨hz, hf, h⟩
    · cases h
  · cases h

end Sys2Proof
end

