-- ==== Sys2Proof/Laws/Memory.lean ====
section
/-!
SUPPORT. The laws of slot storage: a read after a write, the canonical form every operation keeps, and that
canonical memories with equal reads are equal data.
-/

namespace Sys2Proof.Machine

variable {w : Nat}

theorem Memory.read_write_same (m : Memory w) (i : Nat) (v : BitVec w) : (m.write i v).read i = some v := by
  induction m with
  | nil => simp [Memory.write, Memory.read]
  | cons c m ih =>
    obtain ⟨a, u⟩ := c
    simp only [Memory.write]
    split
    · simp [Memory.read]
    · split
      · simp [Memory.read]
      · next h1 h2 => simp [Memory.read, Ne.symm h2, ih]

theorem Memory.read_write_other (m : Memory w) {i j : Nat} (v : BitVec w) (h : j ≠ i) :
    (m.write i v).read j = m.read j := by
  induction m with
  | nil => simp [Memory.write, Memory.read, Ne.symm h]
  | cons c m ih =>
    obtain ⟨a, u⟩ := c
    simp only [Memory.write]
    split
    · simp [Memory.read, Ne.symm h]
    · split
      · next _ h2 => subst h2; simp [Memory.read, Ne.symm h]
      · simp [Memory.read, ih]

/-- A write, read back anywhere. -/
theorem Memory.read_write (m : Memory w) (i j : Nat) (v : BitVec w) :
    (m.write i v).read j = if j = i then some v else m.read j := by
  split
  · next h => subst h; exact m.read_write_same _ v
  · next h => exact m.read_write_other v h

theorem Memory.risesFrom_mono {lo lo' : Nat} (h : lo' ≤ lo) {m : Memory w} (hm : Memory.risesFrom lo m = true) :
    Memory.risesFrom lo' m = true := by
  cases m with
  | nil => rfl
  | cons c m =>
    simp only [Memory.risesFrom, Bool.and_eq_true, decide_eq_true_eq] at hm ⊢
    exact ⟨h.trans hm.1, hm.2⟩

theorem Memory.risesFrom_write {lo : Nat} {m : Memory w} {i : Nat} (v : BitVec w) (hi : lo ≤ i)
    (hm : Memory.risesFrom lo m = true) : Memory.risesFrom lo (m.write i v) = true := by
  induction m generalizing lo with
  | nil => simp [Memory.write, Memory.risesFrom, hi]
  | cons c m ih =>
    obtain ⟨a, u⟩ := c
    simp only [Memory.risesFrom, Bool.and_eq_true, decide_eq_true_eq] at hm
    simp only [Memory.write]
    split
    · next h => simp [Memory.risesFrom, hi, hm.2, Nat.succ_le_of_lt h]
    · split
      · next _ h => subst h; simp [Memory.risesFrom, hi, hm.2]
      · next h1 h2 =>
        simp only [Memory.risesFrom, Bool.and_eq_true, decide_eq_true_eq]
        exact ⟨hm.1, ih (by omega) hm.2⟩

/-- A write keeps the canonical form. -/
theorem Memory.wf_write {m : Memory w} (i : Nat) (v : BitVec w) (hm : m.wf = true) : (m.write i v).wf = true :=
  Memory.risesFrom_write v (Nat.zero_le i) hm

/-- A write inside the space keeps every listed index inside it. -/
theorem Memory.inBounds_write {n : Nat} {m : Memory w} {i : Nat} (v : BitVec w) (hi : i < n)
    (hm : m.inBounds n = true) : (m.write i v).inBounds n = true := by
  induction m with
  | nil => simp [Memory.write, Memory.inBounds, hi]
  | cons c m ih =>
    obtain ⟨a, u⟩ := c
    simp only [Memory.inBounds, List.all_cons, Bool.and_eq_true, decide_eq_true_eq] at hm ih
    simp only [Memory.write]
    split
    · simp [Memory.inBounds, hi, hm.1]; simpa using hm.2
    · split
      · simp [Memory.inBounds, hi]; simpa using hm.2
      · simp only [Memory.inBounds, List.all_cons, Bool.and_eq_true, decide_eq_true_eq]
        exact ⟨hm.1, ih hm.2⟩

theorem Memory.read_none_of_lt {lo : Nat} {m : Memory w} (hm : Memory.risesFrom lo m = true) {i : Nat} (h : i < lo) :
    m.read i = none := by
  induction m generalizing lo with
  | nil => rfl
  | cons c m ih =>
    obtain ⟨a, u⟩ := c
    simp only [Memory.risesFrom, Bool.and_eq_true, decide_eq_true_eq] at hm
    have hne : a ≠ i := by omega
    simp only [Memory.read, if_neg hne]
    exact ih hm.2 (by omega)

theorem Memory.eq_of_reads_from {lo : Nat} {m m' : Memory w} (hm : Memory.risesFrom lo m = true)
    (hm' : Memory.risesFrom lo m' = true) (h : ∀ i, m.read i = m'.read i) : m = m' := by
  induction m generalizing lo m' with
  | nil =>
    cases m' with
    | nil => rfl
    | cons c m' => have := h c.1; simp [Memory.read] at this
  | cons c m ih =>
    obtain ⟨a, u⟩ := c
    cases m' with
    | nil => have := h a; simp [Memory.read] at this
    | cons c' m' =>
      obtain ⟨a', u'⟩ := c'
      simp only [Memory.risesFrom, Bool.and_eq_true, decide_eq_true_eq] at hm hm'
      have hab : a = a' := by
        rcases Nat.lt_trichotomy a a' with hlt | heq | hgt
        · have h1 := h a
          have h2 := Memory.read_none_of_lt hm'.2 (i := a) (by omega)
          simp [Memory.read, Nat.ne_of_gt hlt, h2] at h1
        · exact heq
        · have h1 := h a'
          have h2 := Memory.read_none_of_lt hm.2 (i := a') (by omega)
          simp [Memory.read, Nat.ne_of_gt hgt, h2] at h1
      subst hab
      have huv : u = u' := by have := h a; simpa [Memory.read] using this
      subst huv
      congr 1
      refine ih hm.2 hm'.2 fun i => ?_
      by_cases hi : a = i
      · subst hi
        rw [Memory.read_none_of_lt hm.2 (Nat.lt_succ_self a), Memory.read_none_of_lt hm'.2 (Nat.lt_succ_self a)]
      · have := h i
        simpa [Memory.read, hi] using this

/-- Canonical memories that read alike are equal data. -/
theorem Memory.eq_of_reads {m m' : Memory w} (hm : m.wf = true) (hm' : m'.wf = true)
    (h : ∀ i, m.read i = m'.read i) : m = m' := Memory.eq_of_reads_from hm hm' h

@[simp] theorem Memory.read_nil (i : Nat) : Memory.read ([] : Memory w) i = none := rfl
@[simp] theorem Memory.wf_nil : Memory.wf ([] : Memory w) = true := rfl
@[simp] theorem Memory.inBounds_nil (n : Nat) : Memory.inBounds n ([] : Memory w) = true := rfl

end Sys2Proof.Machine
end

