-- ==== Sys2Proof/Laws/State.lean ====
section
/-!
SUPPORT. One lemma per field per update of the state, true by the update's definition: no later proof unfolds a
record update.
-/

namespace Sys2Proof.Machine

/-! ## `respond` -/

@[simp] theorem State.respond_params (s : State) (r : Rsp) : (s.respond r).params = s.params := rfl
@[simp] theorem State.respond_inited (s : State) (r : Rsp) : (s.respond r).inited = s.inited := rfl
@[simp] theorem State.respond_headRx (s : State) (r : Rsp) : (s.respond r).headRx = s.headRx := rfl
@[simp] theorem State.respond_tailRx (s : State) (r : Rsp) : (s.respond r).tailRx = s.tailRx := rfl
@[simp] theorem State.respond_headTx (s : State) (r : Rsp) : (s.respond r).headTx = s.headTx := rfl
@[simp] theorem State.respond_tailTx (s : State) (r : Rsp) : (s.respond r).tailTx = s.tailTx := rfl
@[simp] theorem State.respond_rxMem (s : State) (r : Rsp) : (s.respond r).rxMem = s.rxMem := rfl
@[simp] theorem State.respond_rxTag (s : State) (r : Rsp) : (s.respond r).rxTag = s.rxTag := rfl
@[simp] theorem State.respond_txMem (s : State) (r : Rsp) : (s.respond r).txMem = s.txMem := rfl
@[simp] theorem State.respond_ovf (s : State) (r : Rsp) : (s.respond r).ovf = s.ovf := rfl
@[simp] theorem State.respond_penderr (s : State) (r : Rsp) : (s.respond r).penderr = s.penderr := rfl
@[simp] theorem State.respond_dreArmed (s : State) (r : Rsp) : (s.respond r).dreArmed = s.dreArmed := rfl
@[simp] theorem State.respond_fcPaused (s : State) (r : Rsp) : (s.respond r).fcPaused = s.fcPaused := rfl
@[simp] theorem State.respond_rxcLvl (s : State) (r : Rsp) : (s.respond r).rxcLvl = s.rxcLvl := rfl
@[simp] theorem State.respond_txcLvl (s : State) (r : Rsp) : (s.respond r).txcLvl = s.txcLvl := rfl
@[simp] theorem State.respond_dreLvl (s : State) (r : Rsp) : (s.respond r).dreLvl = s.dreLvl := rfl
@[simp] theorem State.respond_baud (s : State) (r : Rsp) : (s.respond r).baud = s.baud := rfl
@[simp] theorem State.respond_fmt (s : State) (r : Rsp) : (s.respond r).fmt = s.fmt := rfl
@[simp] theorem State.respond_rxEn (s : State) (r : Rsp) : (s.respond r).rxEn = s.rxEn := rfl
@[simp] theorem State.respond_txEn (s : State) (r : Rsp) : (s.respond r).txEn = s.txEn := rfl
@[simp] theorem State.respond_inp (s : State) (r : Rsp) : (s.respond r).inp = { s.inp with cmd := { s.inp.cmd with valid := false } } := rfl
@[simp] theorem State.respond_script (s : State) (r : Rsp) : (s.respond r).script = s.script := rfl
@[simp] theorem State.respond_rest (s : State) (r : Rsp) : (s.respond r).rest = s.rest := rfl
@[simp] theorem State.respond_out (s : State) (r : Rsp) : (s.respond r).out = { s.out with cmdReady := true, rspValid := true, rsp := r.word } := rfl
@[simp] theorem State.respond_log (s : State) (r : Rsp) : (s.respond r).log = .rsp s.inp.cmd.word r.word :: s.log := rfl
@[simp] theorem State.respond_draws (s : State) (r : Rsp) : (s.respond r).draws = s.draws := rfl

/-! ## `emit` -/

@[simp] theorem State.emit_params (s : State) (o : Obs) : (s.emit o).params = s.params := rfl
@[simp] theorem State.emit_inited (s : State) (o : Obs) : (s.emit o).inited = s.inited := rfl
@[simp] theorem State.emit_headRx (s : State) (o : Obs) : (s.emit o).headRx = s.headRx := rfl
@[simp] theorem State.emit_tailRx (s : State) (o : Obs) : (s.emit o).tailRx = s.tailRx := rfl
@[simp] theorem State.emit_headTx (s : State) (o : Obs) : (s.emit o).headTx = s.headTx := rfl
@[simp] theorem State.emit_tailTx (s : State) (o : Obs) : (s.emit o).tailTx = s.tailTx := rfl
@[simp] theorem State.emit_rxMem (s : State) (o : Obs) : (s.emit o).rxMem = s.rxMem := rfl
@[simp] theorem State.emit_rxTag (s : State) (o : Obs) : (s.emit o).rxTag = s.rxTag := rfl
@[simp] theorem State.emit_txMem (s : State) (o : Obs) : (s.emit o).txMem = s.txMem := rfl
@[simp] theorem State.emit_ovf (s : State) (o : Obs) : (s.emit o).ovf = s.ovf := rfl
@[simp] theorem State.emit_penderr (s : State) (o : Obs) : (s.emit o).penderr = s.penderr := rfl
@[simp] theorem State.emit_dreArmed (s : State) (o : Obs) : (s.emit o).dreArmed = s.dreArmed := rfl
@[simp] theorem State.emit_fcPaused (s : State) (o : Obs) : (s.emit o).fcPaused = s.fcPaused := rfl
@[simp] theorem State.emit_rxcLvl (s : State) (o : Obs) : (s.emit o).rxcLvl = s.rxcLvl := rfl
@[simp] theorem State.emit_txcLvl (s : State) (o : Obs) : (s.emit o).txcLvl = s.txcLvl := rfl
@[simp] theorem State.emit_dreLvl (s : State) (o : Obs) : (s.emit o).dreLvl = s.dreLvl := rfl
@[simp] theorem State.emit_baud (s : State) (o : Obs) : (s.emit o).baud = s.baud := rfl
@[simp] theorem State.emit_fmt (s : State) (o : Obs) : (s.emit o).fmt = s.fmt := rfl
@[simp] theorem State.emit_rxEn (s : State) (o : Obs) : (s.emit o).rxEn = s.rxEn := rfl
@[simp] theorem State.emit_txEn (s : State) (o : Obs) : (s.emit o).txEn = s.txEn := rfl
@[simp] theorem State.emit_inp (s : State) (o : Obs) : (s.emit o).inp = s.inp := rfl
@[simp] theorem State.emit_script (s : State) (o : Obs) : (s.emit o).script = s.script := rfl
@[simp] theorem State.emit_rest (s : State) (o : Obs) : (s.emit o).rest = s.rest := rfl
@[simp] theorem State.emit_out (s : State) (o : Obs) : (s.emit o).out = s.out := rfl
@[simp] theorem State.emit_log (s : State) (o : Obs) : (s.emit o).log = o :: s.log := rfl
@[simp] theorem State.emit_draws (s : State) (o : Obs) : (s.emit o).draws = s.draws := rfl

/-! ## `beginOp` -/

@[simp] theorem State.beginOp_params (s : State) (g : Grant) : (s.beginOp g).params = s.params := rfl
@[simp] theorem State.beginOp_inited (s : State) (g : Grant) : (s.beginOp g).inited = s.inited := rfl
@[simp] theorem State.beginOp_headRx (s : State) (g : Grant) : (s.beginOp g).headRx = s.headRx := rfl
@[simp] theorem State.beginOp_tailRx (s : State) (g : Grant) : (s.beginOp g).tailRx = s.tailRx := rfl
@[simp] theorem State.beginOp_headTx (s : State) (g : Grant) : (s.beginOp g).headTx = s.headTx := rfl
@[simp] theorem State.beginOp_tailTx (s : State) (g : Grant) : (s.beginOp g).tailTx = s.tailTx := rfl
@[simp] theorem State.beginOp_rxMem (s : State) (g : Grant) : (s.beginOp g).rxMem = s.rxMem := rfl
@[simp] theorem State.beginOp_rxTag (s : State) (g : Grant) : (s.beginOp g).rxTag = s.rxTag := rfl
@[simp] theorem State.beginOp_txMem (s : State) (g : Grant) : (s.beginOp g).txMem = s.txMem := rfl
@[simp] theorem State.beginOp_ovf (s : State) (g : Grant) : (s.beginOp g).ovf = s.ovf := rfl
@[simp] theorem State.beginOp_penderr (s : State) (g : Grant) : (s.beginOp g).penderr = s.penderr := rfl
@[simp] theorem State.beginOp_dreArmed (s : State) (g : Grant) : (s.beginOp g).dreArmed = s.dreArmed := rfl
@[simp] theorem State.beginOp_fcPaused (s : State) (g : Grant) : (s.beginOp g).fcPaused = s.fcPaused := rfl
@[simp] theorem State.beginOp_rxcLvl (s : State) (g : Grant) : (s.beginOp g).rxcLvl = s.rxcLvl := rfl
@[simp] theorem State.beginOp_txcLvl (s : State) (g : Grant) : (s.beginOp g).txcLvl = s.txcLvl := rfl
@[simp] theorem State.beginOp_dreLvl (s : State) (g : Grant) : (s.beginOp g).dreLvl = s.dreLvl := rfl
@[simp] theorem State.beginOp_baud (s : State) (g : Grant) : (s.beginOp g).baud = s.baud := rfl
@[simp] theorem State.beginOp_fmt (s : State) (g : Grant) : (s.beginOp g).fmt = s.fmt := rfl
@[simp] theorem State.beginOp_rxEn (s : State) (g : Grant) : (s.beginOp g).rxEn = s.rxEn := rfl
@[simp] theorem State.beginOp_txEn (s : State) (g : Grant) : (s.beginOp g).txEn = s.txEn := rfl
@[simp] theorem State.beginOp_inp (s : State) (g : Grant) : (s.beginOp g).inp = s.inp := rfl
@[simp] theorem State.beginOp_script (s : State) (g : Grant) : (s.beginOp g).script = s.script := rfl
@[simp] theorem State.beginOp_rest (s : State) (g : Grant) : (s.beginOp g).rest = s.rest := rfl
@[simp] theorem State.beginOp_out (s : State) (g : Grant) : (s.beginOp g).out = Outputs.begin g s.out := rfl
@[simp] theorem State.beginOp_log (s : State) (g : Grant) : (s.beginOp g).log = .grant g :: s.log := rfl
@[simp] theorem State.beginOp_draws (s : State) (g : Grant) : (s.beginOp g).draws = s.draws + 1 := rfl

/-! ## `riReadData`, `riWriteData` -/

@[simp] theorem State.riReadData_params (s : State) : (s.riReadData).params = s.params := rfl
@[simp] theorem State.riReadData_inited (s : State) : (s.riReadData).inited = s.inited := rfl
@[simp] theorem State.riReadData_headRx (s : State) : (s.riReadData).headRx = s.headRx := rfl
@[simp] theorem State.riReadData_tailRx (s : State) : (s.riReadData).tailRx = s.tailRx := rfl
@[simp] theorem State.riReadData_headTx (s : State) : (s.riReadData).headTx = s.headTx := rfl
@[simp] theorem State.riReadData_tailTx (s : State) : (s.riReadData).tailTx = s.tailTx := rfl
@[simp] theorem State.riReadData_rxMem (s : State) : (s.riReadData).rxMem = s.rxMem := rfl
@[simp] theorem State.riReadData_rxTag (s : State) : (s.riReadData).rxTag = s.rxTag := rfl
@[simp] theorem State.riReadData_txMem (s : State) : (s.riReadData).txMem = s.txMem := rfl
@[simp] theorem State.riReadData_ovf (s : State) : (s.riReadData).ovf = s.ovf := rfl
@[simp] theorem State.riReadData_penderr (s : State) : (s.riReadData).penderr = s.penderr := rfl
@[simp] theorem State.riReadData_dreArmed (s : State) : (s.riReadData).dreArmed = s.dreArmed := rfl
@[simp] theorem State.riReadData_fcPaused (s : State) : (s.riReadData).fcPaused = s.fcPaused := rfl
@[simp] theorem State.riReadData_rxcLvl (s : State) : (s.riReadData).rxcLvl = s.rxcLvl := rfl
@[simp] theorem State.riReadData_txcLvl (s : State) : (s.riReadData).txcLvl = s.txcLvl := rfl
@[simp] theorem State.riReadData_dreLvl (s : State) : (s.riReadData).dreLvl = s.dreLvl := rfl
@[simp] theorem State.riReadData_baud (s : State) : (s.riReadData).baud = s.baud := rfl
@[simp] theorem State.riReadData_fmt (s : State) : (s.riReadData).fmt = s.fmt := rfl
@[simp] theorem State.riReadData_rxEn (s : State) : (s.riReadData).rxEn = s.rxEn := rfl
@[simp] theorem State.riReadData_txEn (s : State) : (s.riReadData).txEn = s.txEn := rfl
@[simp] theorem State.riReadData_inp (s : State) : (s.riReadData).inp = { s.inp with rx := { s.inp.rx with req := false } } := rfl
@[simp] theorem State.riReadData_script (s : State) : (s.riReadData).script = s.script := rfl
@[simp] theorem State.riReadData_rest (s : State) : (s.riReadData).rest = s.rest := rfl
@[simp] theorem State.riReadData_out (s : State) : (s.riReadData).out = { s.out with riRxRd := true } := rfl
@[simp] theorem State.riReadData_log (s : State) : (s.riReadData).log = s.log := rfl
@[simp] theorem State.riReadData_draws (s : State) : (s.riReadData).draws = s.draws := rfl
@[simp] theorem State.riWriteData_params (s : State) (v : Byte) : (s.riWriteData v).params = s.params := rfl
@[simp] theorem State.riWriteData_inited (s : State) (v : Byte) : (s.riWriteData v).inited = s.inited := rfl
@[simp] theorem State.riWriteData_headRx (s : State) (v : Byte) : (s.riWriteData v).headRx = s.headRx := rfl
@[simp] theorem State.riWriteData_tailRx (s : State) (v : Byte) : (s.riWriteData v).tailRx = s.tailRx := rfl
@[simp] theorem State.riWriteData_headTx (s : State) (v : Byte) : (s.riWriteData v).headTx = s.headTx := rfl
@[simp] theorem State.riWriteData_tailTx (s : State) (v : Byte) : (s.riWriteData v).tailTx = s.tailTx := rfl
@[simp] theorem State.riWriteData_rxMem (s : State) (v : Byte) : (s.riWriteData v).rxMem = s.rxMem := rfl
@[simp] theorem State.riWriteData_rxTag (s : State) (v : Byte) : (s.riWriteData v).rxTag = s.rxTag := rfl
@[simp] theorem State.riWriteData_txMem (s : State) (v : Byte) : (s.riWriteData v).txMem = s.txMem := rfl
@[simp] theorem State.riWriteData_ovf (s : State) (v : Byte) : (s.riWriteData v).ovf = s.ovf := rfl
@[simp] theorem State.riWriteData_penderr (s : State) (v : Byte) : (s.riWriteData v).penderr = s.penderr := rfl
@[simp] theorem State.riWriteData_dreArmed (s : State) (v : Byte) : (s.riWriteData v).dreArmed = s.dreArmed := rfl
@[simp] theorem State.riWriteData_fcPaused (s : State) (v : Byte) : (s.riWriteData v).fcPaused = s.fcPaused := rfl
@[simp] theorem State.riWriteData_rxcLvl (s : State) (v : Byte) : (s.riWriteData v).rxcLvl = s.rxcLvl := rfl
@[simp] theorem State.riWriteData_txcLvl (s : State) (v : Byte) : (s.riWriteData v).txcLvl = s.txcLvl := rfl
@[simp] theorem State.riWriteData_dreLvl (s : State) (v : Byte) : (s.riWriteData v).dreLvl = s.dreLvl := rfl
@[simp] theorem State.riWriteData_baud (s : State) (v : Byte) : (s.riWriteData v).baud = s.baud := rfl
@[simp] theorem State.riWriteData_fmt (s : State) (v : Byte) : (s.riWriteData v).fmt = s.fmt := rfl
@[simp] theorem State.riWriteData_rxEn (s : State) (v : Byte) : (s.riWriteData v).rxEn = s.rxEn := rfl
@[simp] theorem State.riWriteData_txEn (s : State) (v : Byte) : (s.riWriteData v).txEn = s.txEn := rfl
@[simp] theorem State.riWriteData_inp (s : State) (v : Byte) : (s.riWriteData v).inp = { s.inp with dreReq := false } := rfl
@[simp] theorem State.riWriteData_script (s : State) (v : Byte) : (s.riWriteData v).script = s.script := rfl
@[simp] theorem State.riWriteData_rest (s : State) (v : Byte) : (s.riWriteData v).rest = s.rest := rfl
@[simp] theorem State.riWriteData_out (s : State) (v : Byte) : (s.riWriteData v).out = { s.out with riTxWr := true, riTxData := some v } := rfl
@[simp] theorem State.riWriteData_log (s : State) (v : Byte) : (s.riWriteData v).log = .wire v :: s.log := rfl
@[simp] theorem State.riWriteData_draws (s : State) (v : Byte) : (s.riWriteData v).draws = s.draws := rfl

/-! ## `tagWrite` -/

@[simp] theorem State.tagWrite_params (s : State) (i : Nat) (t : ErrBits) : (s.tagWrite i t).params = s.params := rfl
@[simp] theorem State.tagWrite_inited (s : State) (i : Nat) (t : ErrBits) : (s.tagWrite i t).inited = s.inited := rfl
@[simp] theorem State.tagWrite_headRx (s : State) (i : Nat) (t : ErrBits) : (s.tagWrite i t).headRx = s.headRx := rfl
@[simp] theorem State.tagWrite_tailRx (s : State) (i : Nat) (t : ErrBits) : (s.tagWrite i t).tailRx = s.tailRx := rfl
@[simp] theorem State.tagWrite_headTx (s : State) (i : Nat) (t : ErrBits) : (s.tagWrite i t).headTx = s.headTx := rfl
@[simp] theorem State.tagWrite_tailTx (s : State) (i : Nat) (t : ErrBits) : (s.tagWrite i t).tailTx = s.tailTx := rfl
@[simp] theorem State.tagWrite_rxMem (s : State) (i : Nat) (t : ErrBits) : (s.tagWrite i t).rxMem = s.rxMem := rfl
@[simp] theorem State.tagWrite_rxTag (s : State) (i : Nat) (t : ErrBits) : (s.tagWrite i t).rxTag = s.rxTag.write i t := rfl
@[simp] theorem State.tagWrite_txMem (s : State) (i : Nat) (t : ErrBits) : (s.tagWrite i t).txMem = s.txMem := rfl
@[simp] theorem State.tagWrite_ovf (s : State) (i : Nat) (t : ErrBits) : (s.tagWrite i t).ovf = s.ovf := rfl
@[simp] theorem State.tagWrite_penderr (s : State) (i : Nat) (t : ErrBits) : (s.tagWrite i t).penderr = s.penderr := rfl
@[simp] theorem State.tagWrite_dreArmed (s : State) (i : Nat) (t : ErrBits) : (s.tagWrite i t).dreArmed = s.dreArmed := rfl
@[simp] theorem State.tagWrite_fcPaused (s : State) (i : Nat) (t : ErrBits) : (s.tagWrite i t).fcPaused = s.fcPaused := rfl
@[simp] theorem State.tagWrite_rxcLvl (s : State) (i : Nat) (t : ErrBits) : (s.tagWrite i t).rxcLvl = s.rxcLvl := rfl
@[simp] theorem State.tagWrite_txcLvl (s : State) (i : Nat) (t : ErrBits) : (s.tagWrite i t).txcLvl = s.txcLvl := rfl
@[simp] theorem State.tagWrite_dreLvl (s : State) (i : Nat) (t : ErrBits) : (s.tagWrite i t).dreLvl = s.dreLvl := rfl
@[simp] theorem State.tagWrite_baud (s : State) (i : Nat) (t : ErrBits) : (s.tagWrite i t).baud = s.baud := rfl
@[simp] theorem State.tagWrite_fmt (s : State) (i : Nat) (t : ErrBits) : (s.tagWrite i t).fmt = s.fmt := rfl
@[simp] theorem State.tagWrite_rxEn (s : State) (i : Nat) (t : ErrBits) : (s.tagWrite i t).rxEn = s.rxEn := rfl
@[simp] theorem State.tagWrite_txEn (s : State) (i : Nat) (t : ErrBits) : (s.tagWrite i t).txEn = s.txEn := rfl
@[simp] theorem State.tagWrite_inp (s : State) (i : Nat) (t : ErrBits) : (s.tagWrite i t).inp = s.inp := rfl
@[simp] theorem State.tagWrite_script (s : State) (i : Nat) (t : ErrBits) : (s.tagWrite i t).script = s.script := rfl
@[simp] theorem State.tagWrite_rest (s : State) (i : Nat) (t : ErrBits) : (s.tagWrite i t).rest = s.rest := rfl
@[simp] theorem State.tagWrite_out (s : State) (i : Nat) (t : ErrBits) : (s.tagWrite i t).out = s.out := rfl
@[simp] theorem State.tagWrite_log (s : State) (i : Nat) (t : ErrBits) : (s.tagWrite i t).log = s.log := rfl
@[simp] theorem State.tagWrite_draws (s : State) (i : Nat) (t : ErrBits) : (s.tagWrite i t).draws = s.draws := rfl

/-! ## `setHead`, `setTail`, `setMem`: every field but the cursors, respectively the byte spaces -/

@[simp] theorem State.setHead_params (s : State) (b : Buf) (v : Nat) : (s.setHead b v).params = s.params := by cases b <;> rfl
@[simp] theorem State.setHead_inited (s : State) (b : Buf) (v : Nat) : (s.setHead b v).inited = s.inited := by cases b <;> rfl
@[simp] theorem State.setHead_tailRx (s : State) (b : Buf) (v : Nat) : (s.setHead b v).tailRx = s.tailRx := by cases b <;> rfl
@[simp] theorem State.setHead_tailTx (s : State) (b : Buf) (v : Nat) : (s.setHead b v).tailTx = s.tailTx := by cases b <;> rfl
@[simp] theorem State.setHead_rxMem (s : State) (b : Buf) (v : Nat) : (s.setHead b v).rxMem = s.rxMem := by cases b <;> rfl
@[simp] theorem State.setHead_rxTag (s : State) (b : Buf) (v : Nat) : (s.setHead b v).rxTag = s.rxTag := by cases b <;> rfl
@[simp] theorem State.setHead_txMem (s : State) (b : Buf) (v : Nat) : (s.setHead b v).txMem = s.txMem := by cases b <;> rfl
@[simp] theorem State.setHead_ovf (s : State) (b : Buf) (v : Nat) : (s.setHead b v).ovf = s.ovf := by cases b <;> rfl
@[simp] theorem State.setHead_penderr (s : State) (b : Buf) (v : Nat) : (s.setHead b v).penderr = s.penderr := by cases b <;> rfl
@[simp] theorem State.setHead_dreArmed (s : State) (b : Buf) (v : Nat) : (s.setHead b v).dreArmed = s.dreArmed := by cases b <;> rfl
@[simp] theorem State.setHead_fcPaused (s : State) (b : Buf) (v : Nat) : (s.setHead b v).fcPaused = s.fcPaused := by cases b <;> rfl
@[simp] theorem State.setHead_rxcLvl (s : State) (b : Buf) (v : Nat) : (s.setHead b v).rxcLvl = s.rxcLvl := by cases b <;> rfl
@[simp] theorem State.setHead_txcLvl (s : State) (b : Buf) (v : Nat) : (s.setHead b v).txcLvl = s.txcLvl := by cases b <;> rfl
@[simp] theorem State.setHead_dreLvl (s : State) (b : Buf) (v : Nat) : (s.setHead b v).dreLvl = s.dreLvl := by cases b <;> rfl
@[simp] theorem State.setHead_baud (s : State) (b : Buf) (v : Nat) : (s.setHead b v).baud = s.baud := by cases b <;> rfl
@[simp] theorem State.setHead_fmt (s : State) (b : Buf) (v : Nat) : (s.setHead b v).fmt = s.fmt := by cases b <;> rfl
@[simp] theorem State.setHead_rxEn (s : State) (b : Buf) (v : Nat) : (s.setHead b v).rxEn = s.rxEn := by cases b <;> rfl
@[simp] theorem State.setHead_txEn (s : State) (b : Buf) (v : Nat) : (s.setHead b v).txEn = s.txEn := by cases b <;> rfl
@[simp] theorem State.setHead_inp (s : State) (b : Buf) (v : Nat) : (s.setHead b v).inp = s.inp := by cases b <;> rfl
@[simp] theorem State.setHead_script (s : State) (b : Buf) (v : Nat) : (s.setHead b v).script = s.script := by cases b <;> rfl
@[simp] theorem State.setHead_rest (s : State) (b : Buf) (v : Nat) : (s.setHead b v).rest = s.rest := by cases b <;> rfl
@[simp] theorem State.setHead_out (s : State) (b : Buf) (v : Nat) : (s.setHead b v).out = s.out := by cases b <;> rfl
@[simp] theorem State.setHead_log (s : State) (b : Buf) (v : Nat) : (s.setHead b v).log = s.log := by cases b <;> rfl
@[simp] theorem State.setHead_draws (s : State) (b : Buf) (v : Nat) : (s.setHead b v).draws = s.draws := by cases b <;> rfl
@[simp] theorem State.setTail_params (s : State) (b : Buf) (v : Nat) : (s.setTail b v).params = s.params := by cases b <;> rfl
@[simp] theorem State.setTail_inited (s : State) (b : Buf) (v : Nat) : (s.setTail b v).inited = s.inited := by cases b <;> rfl
@[simp] theorem State.setTail_headRx (s : State) (b : Buf) (v : Nat) : (s.setTail b v).headRx = s.headRx := by cases b <;> rfl
@[simp] theorem State.setTail_headTx (s : State) (b : Buf) (v : Nat) : (s.setTail b v).headTx = s.headTx := by cases b <;> rfl
@[simp] theorem State.setTail_rxMem (s : State) (b : Buf) (v : Nat) : (s.setTail b v).rxMem = s.rxMem := by cases b <;> rfl
@[simp] theorem State.setTail_rxTag (s : State) (b : Buf) (v : Nat) : (s.setTail b v).rxTag = s.rxTag := by cases b <;> rfl
@[simp] theorem State.setTail_txMem (s : State) (b : Buf) (v : Nat) : (s.setTail b v).txMem = s.txMem := by cases b <;> rfl
@[simp] theorem State.setTail_ovf (s : State) (b : Buf) (v : Nat) : (s.setTail b v).ovf = s.ovf := by cases b <;> rfl
@[simp] theorem State.setTail_penderr (s : State) (b : Buf) (v : Nat) : (s.setTail b v).penderr = s.penderr := by cases b <;> rfl
@[simp] theorem State.setTail_dreArmed (s : State) (b : Buf) (v : Nat) : (s.setTail b v).dreArmed = s.dreArmed := by cases b <;> rfl
@[simp] theorem State.setTail_fcPaused (s : State) (b : Buf) (v : Nat) : (s.setTail b v).fcPaused = s.fcPaused := by cases b <;> rfl
@[simp] theorem State.setTail_rxcLvl (s : State) (b : Buf) (v : Nat) : (s.setTail b v).rxcLvl = s.rxcLvl := by cases b <;> rfl
@[simp] theorem State.setTail_txcLvl (s : State) (b : Buf) (v : Nat) : (s.setTail b v).txcLvl = s.txcLvl := by cases b <;> rfl
@[simp] theorem State.setTail_dreLvl (s : State) (b : Buf) (v : Nat) : (s.setTail b v).dreLvl = s.dreLvl := by cases b <;> rfl
@[simp] theorem State.setTail_baud (s : State) (b : Buf) (v : Nat) : (s.setTail b v).baud = s.baud := by cases b <;> rfl
@[simp] theorem State.setTail_fmt (s : State) (b : Buf) (v : Nat) : (s.setTail b v).fmt = s.fmt := by cases b <;> rfl
@[simp] theorem State.setTail_rxEn (s : State) (b : Buf) (v : Nat) : (s.setTail b v).rxEn = s.rxEn := by cases b <;> rfl
@[simp] theorem State.setTail_txEn (s : State) (b : Buf) (v : Nat) : (s.setTail b v).txEn = s.txEn := by cases b <;> rfl
@[simp] theorem State.setTail_inp (s : State) (b : Buf) (v : Nat) : (s.setTail b v).inp = s.inp := by cases b <;> rfl
@[simp] theorem State.setTail_script (s : State) (b : Buf) (v : Nat) : (s.setTail b v).script = s.script := by cases b <;> rfl
@[simp] theorem State.setTail_rest (s : State) (b : Buf) (v : Nat) : (s.setTail b v).rest = s.rest := by cases b <;> rfl
@[simp] theorem State.setTail_out (s : State) (b : Buf) (v : Nat) : (s.setTail b v).out = s.out := by cases b <;> rfl
@[simp] theorem State.setTail_log (s : State) (b : Buf) (v : Nat) : (s.setTail b v).log = s.log := by cases b <;> rfl
@[simp] theorem State.setTail_draws (s : State) (b : Buf) (v : Nat) : (s.setTail b v).draws = s.draws := by cases b <;> rfl
@[simp] theorem State.setMem_params (s : State) (b : Buf) (m : Memory 8) : (s.setMem b m).params = s.params := by cases b <;> rfl
@[simp] theorem State.setMem_inited (s : State) (b : Buf) (m : Memory 8) : (s.setMem b m).inited = s.inited := by cases b <;> rfl
@[simp] theorem State.setMem_headRx (s : State) (b : Buf) (m : Memory 8) : (s.setMem b m).headRx = s.headRx := by cases b <;> rfl
@[simp] theorem State.setMem_tailRx (s : State) (b : Buf) (m : Memory 8) : (s.setMem b m).tailRx = s.tailRx := by cases b <;> rfl
@[simp] theorem State.setMem_headTx (s : State) (b : Buf) (m : Memory 8) : (s.setMem b m).headTx = s.headTx := by cases b <;> rfl
@[simp] theorem State.setMem_tailTx (s : State) (b : Buf) (m : Memory 8) : (s.setMem b m).tailTx = s.tailTx := by cases b <;> rfl
@[simp] theorem State.setMem_rxTag (s : State) (b : Buf) (m : Memory 8) : (s.setMem b m).rxTag = s.rxTag := by cases b <;> rfl
@[simp] theorem State.setMem_ovf (s : State) (b : Buf) (m : Memory 8) : (s.setMem b m).ovf = s.ovf := by cases b <;> rfl
@[simp] theorem State.setMem_penderr (s : State) (b : Buf) (m : Memory 8) : (s.setMem b m).penderr = s.penderr := by cases b <;> rfl
@[simp] theorem State.setMem_dreArmed (s : State) (b : Buf) (m : Memory 8) : (s.setMem b m).dreArmed = s.dreArmed := by cases b <;> rfl
@[simp] theorem State.setMem_fcPaused (s : State) (b : Buf) (m : Memory 8) : (s.setMem b m).fcPaused = s.fcPaused := by cases b <;> rfl
@[simp] theorem State.setMem_rxcLvl (s : State) (b : Buf) (m : Memory 8) : (s.setMem b m).rxcLvl = s.rxcLvl := by cases b <;> rfl
@[simp] theorem State.setMem_txcLvl (s : State) (b : Buf) (m : Memory 8) : (s.setMem b m).txcLvl = s.txcLvl := by cases b <;> rfl
@[simp] theorem State.setMem_dreLvl (s : State) (b : Buf) (m : Memory 8) : (s.setMem b m).dreLvl = s.dreLvl := by cases b <;> rfl
@[simp] theorem State.setMem_baud (s : State) (b : Buf) (m : Memory 8) : (s.setMem b m).baud = s.baud := by cases b <;> rfl
@[simp] theorem State.setMem_fmt (s : State) (b : Buf) (m : Memory 8) : (s.setMem b m).fmt = s.fmt := by cases b <;> rfl
@[simp] theorem State.setMem_rxEn (s : State) (b : Buf) (m : Memory 8) : (s.setMem b m).rxEn = s.rxEn := by cases b <;> rfl
@[simp] theorem State.setMem_txEn (s : State) (b : Buf) (m : Memory 8) : (s.setMem b m).txEn = s.txEn := by cases b <;> rfl
@[simp] theorem State.setMem_inp (s : State) (b : Buf) (m : Memory 8) : (s.setMem b m).inp = s.inp := by cases b <;> rfl
@[simp] theorem State.setMem_script (s : State) (b : Buf) (m : Memory 8) : (s.setMem b m).script = s.script := by cases b <;> rfl
@[simp] theorem State.setMem_rest (s : State) (b : Buf) (m : Memory 8) : (s.setMem b m).rest = s.rest := by cases b <;> rfl
@[simp] theorem State.setMem_out (s : State) (b : Buf) (m : Memory 8) : (s.setMem b m).out = s.out := by cases b <;> rfl
@[simp] theorem State.setMem_log (s : State) (b : Buf) (m : Memory 8) : (s.setMem b m).log = s.log := by cases b <;> rfl
@[simp] theorem State.setMem_draws (s : State) (b : Buf) (m : Memory 8) : (s.setMem b m).draws = s.draws := by cases b <;> rfl

/-! ## `initialise` -/

@[simp] theorem State.initialise_params (s : State) (lvl : Level) (baud : Baud) : (s.initialise lvl baud).params = s.params := rfl
@[simp] theorem State.initialise_inited (s : State) (lvl : Level) (baud : Baud) : (s.initialise lvl baud).inited = true := rfl
@[simp] theorem State.initialise_headRx (s : State) (lvl : Level) (baud : Baud) : (s.initialise lvl baud).headRx = 0 := rfl
@[simp] theorem State.initialise_tailRx (s : State) (lvl : Level) (baud : Baud) : (s.initialise lvl baud).tailRx = 0 := rfl
@[simp] theorem State.initialise_headTx (s : State) (lvl : Level) (baud : Baud) : (s.initialise lvl baud).headTx = 0 := rfl
@[simp] theorem State.initialise_tailTx (s : State) (lvl : Level) (baud : Baud) : (s.initialise lvl baud).tailTx = 0 := rfl
@[simp] theorem State.initialise_rxMem (s : State) (lvl : Level) (baud : Baud) : (s.initialise lvl baud).rxMem = s.rxMem := rfl
@[simp] theorem State.initialise_rxTag (s : State) (lvl : Level) (baud : Baud) : (s.initialise lvl baud).rxTag = s.rxTag := rfl
@[simp] theorem State.initialise_txMem (s : State) (lvl : Level) (baud : Baud) : (s.initialise lvl baud).txMem = s.txMem := rfl
@[simp] theorem State.initialise_ovf (s : State) (lvl : Level) (baud : Baud) : (s.initialise lvl baud).ovf = false := rfl
@[simp] theorem State.initialise_penderr (s : State) (lvl : Level) (baud : Baud) : (s.initialise lvl baud).penderr = 0#2 := rfl
@[simp] theorem State.initialise_dreArmed (s : State) (lvl : Level) (baud : Baud) : (s.initialise lvl baud).dreArmed = .disarmed := rfl
@[simp] theorem State.initialise_fcPaused (s : State) (lvl : Level) (baud : Baud) : (s.initialise lvl baud).fcPaused = false := rfl
@[simp] theorem State.initialise_rxcLvl (s : State) (lvl : Level) (baud : Baud) : (s.initialise lvl baud).rxcLvl = s.params.rxcInitLvl := rfl
@[simp] theorem State.initialise_txcLvl (s : State) (lvl : Level) (baud : Baud) : (s.initialise lvl baud).txcLvl = 0#2 := rfl
@[simp] theorem State.initialise_dreLvl (s : State) (lvl : Level) (baud : Baud) : (s.initialise lvl baud).dreLvl = lvl := rfl
@[simp] theorem State.initialise_baud (s : State) (lvl : Level) (baud : Baud) : (s.initialise lvl baud).baud = baud := rfl
@[simp] theorem State.initialise_fmt (s : State) (lvl : Level) (baud : Baud) : (s.initialise lvl baud).fmt = fmt8N1 := rfl
@[simp] theorem State.initialise_rxEn (s : State) (lvl : Level) (baud : Baud) : (s.initialise lvl baud).rxEn = true := rfl
@[simp] theorem State.initialise_txEn (s : State) (lvl : Level) (baud : Baud) : (s.initialise lvl baud).txEn = true := rfl
@[simp] theorem State.initialise_inp (s : State) (lvl : Level) (baud : Baud) : (s.initialise lvl baud).inp = s.inp := rfl
@[simp] theorem State.initialise_script (s : State) (lvl : Level) (baud : Baud) : (s.initialise lvl baud).script = s.script := rfl
@[simp] theorem State.initialise_rest (s : State) (lvl : Level) (baud : Baud) : (s.initialise lvl baud).rest = s.rest := rfl
@[simp] theorem State.initialise_out (s : State) (lvl : Level) (baud : Baud) : (s.initialise lvl baud).out = s.out := rfl
@[simp] theorem State.initialise_log (s : State) (lvl : Level) (baud : Baud) : (s.initialise lvl baud).log = s.log := rfl
@[simp] theorem State.initialise_draws (s : State) (lvl : Level) (baud : Baud) : (s.initialise lvl baud).draws = s.draws := rfl

/-! ## `endOp`: every field but the log -/

@[simp] theorem State.endOp_params (a s : State) : (State.endOp a s).params = s.params := by unfold State.endOp; split <;> rfl
@[simp] theorem State.endOp_inited (a s : State) : (State.endOp a s).inited = s.inited := by unfold State.endOp; split <;> rfl
@[simp] theorem State.endOp_headRx (a s : State) : (State.endOp a s).headRx = s.headRx := by unfold State.endOp; split <;> rfl
@[simp] theorem State.endOp_tailRx (a s : State) : (State.endOp a s).tailRx = s.tailRx := by unfold State.endOp; split <;> rfl
@[simp] theorem State.endOp_headTx (a s : State) : (State.endOp a s).headTx = s.headTx := by unfold State.endOp; split <;> rfl
@[simp] theorem State.endOp_tailTx (a s : State) : (State.endOp a s).tailTx = s.tailTx := by unfold State.endOp; split <;> rfl
@[simp] theorem State.endOp_rxMem (a s : State) : (State.endOp a s).rxMem = s.rxMem := by unfold State.endOp; split <;> rfl
@[simp] theorem State.endOp_rxTag (a s : State) : (State.endOp a s).rxTag = s.rxTag := by unfold State.endOp; split <;> rfl
@[simp] theorem State.endOp_txMem (a s : State) : (State.endOp a s).txMem = s.txMem := by unfold State.endOp; split <;> rfl
@[simp] theorem State.endOp_ovf (a s : State) : (State.endOp a s).ovf = s.ovf := by unfold State.endOp; split <;> rfl
@[simp] theorem State.endOp_penderr (a s : State) : (State.endOp a s).penderr = s.penderr := by unfold State.endOp; split <;> rfl
@[simp] theorem State.endOp_dreArmed (a s : State) : (State.endOp a s).dreArmed = s.dreArmed := by unfold State.endOp; split <;> rfl
@[simp] theorem State.endOp_fcPaused (a s : State) : (State.endOp a s).fcPaused = s.fcPaused := by unfold State.endOp; split <;> rfl
@[simp] theorem State.endOp_rxcLvl (a s : State) : (State.endOp a s).rxcLvl = s.rxcLvl := by unfold State.endOp; split <;> rfl
@[simp] theorem State.endOp_txcLvl (a s : State) : (State.endOp a s).txcLvl = s.txcLvl := by unfold State.endOp; split <;> rfl
@[simp] theorem State.endOp_dreLvl (a s : State) : (State.endOp a s).dreLvl = s.dreLvl := by unfold State.endOp; split <;> rfl
@[simp] theorem State.endOp_baud (a s : State) : (State.endOp a s).baud = s.baud := by unfold State.endOp; split <;> rfl
@[simp] theorem State.endOp_fmt (a s : State) : (State.endOp a s).fmt = s.fmt := by unfold State.endOp; split <;> rfl
@[simp] theorem State.endOp_rxEn (a s : State) : (State.endOp a s).rxEn = s.rxEn := by unfold State.endOp; split <;> rfl
@[simp] theorem State.endOp_txEn (a s : State) : (State.endOp a s).txEn = s.txEn := by unfold State.endOp; split <;> rfl
@[simp] theorem State.endOp_inp (a s : State) : (State.endOp a s).inp = s.inp := by unfold State.endOp; split <;> rfl
@[simp] theorem State.endOp_script (a s : State) : (State.endOp a s).script = s.script := by unfold State.endOp; split <;> rfl
@[simp] theorem State.endOp_rest (a s : State) : (State.endOp a s).rest = s.rest := by unfold State.endOp; split <;> rfl
@[simp] theorem State.endOp_out (a s : State) : (State.endOp a s).out = s.out := by unfold State.endOp; split <;> rfl
@[simp] theorem State.endOp_draws (a s : State) : (State.endOp a s).draws = s.draws := by unfold State.endOp; split <;> rfl

/-! ## `sample` -/

@[simp] theorem State.sample_params (s : State) : (s.sample).params = s.params := rfl
@[simp] theorem State.sample_inited (s : State) : (s.sample).inited = s.inited := rfl
@[simp] theorem State.sample_headRx (s : State) : (s.sample).headRx = s.headRx := rfl
@[simp] theorem State.sample_tailRx (s : State) : (s.sample).tailRx = s.tailRx := rfl
@[simp] theorem State.sample_headTx (s : State) : (s.sample).headTx = s.headTx := rfl
@[simp] theorem State.sample_tailTx (s : State) : (s.sample).tailTx = s.tailTx := rfl
@[simp] theorem State.sample_rxMem (s : State) : (s.sample).rxMem = s.rxMem := rfl
@[simp] theorem State.sample_rxTag (s : State) : (s.sample).rxTag = s.rxTag := rfl
@[simp] theorem State.sample_txMem (s : State) : (s.sample).txMem = s.txMem := rfl
@[simp] theorem State.sample_ovf (s : State) : (s.sample).ovf = s.ovf := rfl
@[simp] theorem State.sample_penderr (s : State) : (s.sample).penderr = s.penderr := rfl
@[simp] theorem State.sample_dreArmed (s : State) : (s.sample).dreArmed = s.dreArmed := rfl
@[simp] theorem State.sample_fcPaused (s : State) : (s.sample).fcPaused = s.fcPaused := rfl
@[simp] theorem State.sample_rxcLvl (s : State) : (s.sample).rxcLvl = s.rxcLvl := rfl
@[simp] theorem State.sample_txcLvl (s : State) : (s.sample).txcLvl = s.txcLvl := rfl
@[simp] theorem State.sample_dreLvl (s : State) : (s.sample).dreLvl = s.dreLvl := rfl
@[simp] theorem State.sample_baud (s : State) : (s.sample).baud = s.baud := rfl
@[simp] theorem State.sample_fmt (s : State) : (s.sample).fmt = s.fmt := rfl
@[simp] theorem State.sample_rxEn (s : State) : (s.sample).rxEn = s.rxEn := rfl
@[simp] theorem State.sample_txEn (s : State) : (s.sample).txEn = s.txEn := rfl
@[simp] theorem State.sample_out (s : State) : (s.sample).out = s.out := rfl
@[simp] theorem State.sample_log (s : State) : (s.sample).log = s.log := rfl
@[simp] theorem State.sample_draws (s : State) : (s.sample).draws = s.draws := rfl

/-- Not a simp lemma: the statements speak of `s.sample.inp`. -/
theorem State.sample_inp (s : State) : s.sample.inp = s.nextFrame.apply s.inp := rfl
@[simp] theorem State.sample_script (s : State) : s.sample.script = s.script.tail := rfl
@[simp] theorem State.sample_rest (s : State) : s.sample.rest = s.restAfter := rfl
@[simp] theorem Frame.still_apply (i : Inputs) : Frame.still.apply i = i := rfl

/-- In an environment that repeats one frame a step samples that frame, and the environment is as it was (log 2). -/
theorem State.sample_of_loop {s : State} {f : Frame} (hs : s.script = []) (hr : s.rest = .loop f []) :
    s.sample = { s with inp := f.apply s.inp } := by
  simp [State.sample, State.nextFrame, State.restAfter, hs, hr, Rest.frame, Rest.next]

/-- In a still environment a step samples the inputs as they are. -/
theorem State.sample_of_still {s : State} (hs : s.script = []) (hr : s.rest = .still) : s.sample = s :=
  State.sample_of_loop hs hr

/-- What a step of `SENDSTRING` samples: the environment's frame, but for the command port (log 11). -/
theorem State.presentSend_sample (s : State) (b : Byte) :
    (s.presentSend b).sample =
      { s.sample with inp := { s.sample.inp with cmd := ⟨true, packCmd 0x2#4 0#4 (byteImm b)⟩ } } := rfl

/-! ## `hardReset` -/

@[simp] theorem State.hardReset_params (s : State) : s.hardReset.params = s.params := rfl
@[simp] theorem State.hardReset_inited (s : State) : s.hardReset.inited = false := rfl
@[simp] theorem State.hardReset_headRx (s : State) : s.hardReset.headRx = 0 := rfl
@[simp] theorem State.hardReset_tailRx (s : State) : s.hardReset.tailRx = 0 := rfl
@[simp] theorem State.hardReset_headTx (s : State) : s.hardReset.headTx = 0 := rfl
@[simp] theorem State.hardReset_tailTx (s : State) : s.hardReset.tailTx = 0 := rfl
@[simp] theorem State.hardReset_rxMem (s : State) : s.hardReset.rxMem = [] := rfl
@[simp] theorem State.hardReset_rxTag (s : State) : s.hardReset.rxTag = [] := rfl
@[simp] theorem State.hardReset_txMem (s : State) : s.hardReset.txMem = [] := rfl
@[simp] theorem State.hardReset_ovf (s : State) : s.hardReset.ovf = false := rfl
@[simp] theorem State.hardReset_penderr (s : State) : s.hardReset.penderr = 0#2 := rfl
@[simp] theorem State.hardReset_dreArmed (s : State) : s.hardReset.dreArmed = .disarmed := rfl
@[simp] theorem State.hardReset_fcPaused (s : State) : s.hardReset.fcPaused = false := rfl
@[simp] theorem State.hardReset_rxcLvl (s : State) : s.hardReset.rxcLvl = 0#2 := rfl
@[simp] theorem State.hardReset_txcLvl (s : State) : s.hardReset.txcLvl = 0#2 := rfl
@[simp] theorem State.hardReset_dreLvl (s : State) : s.hardReset.dreLvl = 0#2 := rfl
@[simp] theorem State.hardReset_baud (s : State) : s.hardReset.baud = 0#24 := rfl
@[simp] theorem State.hardReset_fmt (s : State) : s.hardReset.fmt = 0b00011#5 := rfl
@[simp] theorem State.hardReset_rxEn (s : State) : s.hardReset.rxEn = false := rfl
@[simp] theorem State.hardReset_txEn (s : State) : s.hardReset.txEn = false := rfl
@[simp] theorem State.hardReset_inp (s : State) : s.hardReset.inp = s.inp := rfl
@[simp] theorem State.hardReset_script (s : State) : s.hardReset.script = s.script := rfl
@[simp] theorem State.hardReset_rest (s : State) : s.hardReset.rest = s.rest := rfl
@[simp] theorem State.hardReset_out (s : State) : s.hardReset.out = Outputs.reset := rfl
@[simp] theorem State.hardReset_log (s : State) : s.hardReset.log = .reset :: s.log := rfl
@[simp] theorem State.hardReset_draws (s : State) : s.hardReset.draws = s.draws + 1 := rfl

/-! ## The accessors by buffer -/

@[simp] theorem State.slots_rx (s : State) : s.slots .rx = s.params.nRx := rfl
@[simp] theorem State.slots_tx (s : State) : s.slots .tx = s.params.nTx := rfl
@[simp] theorem State.head_rx (s : State) : s.head .rx = s.headRx := rfl
@[simp] theorem State.head_tx (s : State) : s.head .tx = s.headTx := rfl
@[simp] theorem State.tail_rx (s : State) : s.tail .rx = s.tailRx := rfl
@[simp] theorem State.tail_tx (s : State) : s.tail .tx = s.tailTx := rfl
@[simp] theorem State.mem_rx (s : State) : s.mem .rx = s.rxMem := rfl
@[simp] theorem State.mem_tx (s : State) : s.mem .tx = s.txMem := rfl
@[simp] theorem State.setHead_rx_headRx (s : State) (v : Nat) : (s.setHead .rx v).headRx = v := rfl
@[simp] theorem State.setHead_rx_headTx (s : State) (v : Nat) : (s.setHead .rx v).headTx = s.headTx := rfl
@[simp] theorem State.setHead_tx_headRx (s : State) (v : Nat) : (s.setHead .tx v).headRx = s.headRx := rfl
@[simp] theorem State.setHead_tx_headTx (s : State) (v : Nat) : (s.setHead .tx v).headTx = v := rfl
@[simp] theorem State.setTail_rx_tailRx (s : State) (v : Nat) : (s.setTail .rx v).tailRx = v := rfl
@[simp] theorem State.setTail_rx_tailTx (s : State) (v : Nat) : (s.setTail .rx v).tailTx = s.tailTx := rfl
@[simp] theorem State.setTail_tx_tailRx (s : State) (v : Nat) : (s.setTail .tx v).tailRx = s.tailRx := rfl
@[simp] theorem State.setTail_tx_tailTx (s : State) (v : Nat) : (s.setTail .tx v).tailTx = v := rfl
@[simp] theorem State.setMem_rx_rxMem (s : State) (m : Memory 8) : (s.setMem .rx m).rxMem = m := rfl
@[simp] theorem State.setMem_rx_txMem (s : State) (m : Memory 8) : (s.setMem .rx m).txMem = s.txMem := rfl
@[simp] theorem State.setMem_tx_rxMem (s : State) (m : Memory 8) : (s.setMem .tx m).rxMem = s.rxMem := rfl
@[simp] theorem State.setMem_tx_txMem (s : State) (m : Memory 8) : (s.setMem .tx m).txMem = m := rfl
@[simp] theorem State.regs_respond (s : State) (r : Rsp) : (s.respond r).regs = s.regs := rfl
@[simp] theorem State.regs_emit (s : State) (o : Obs) : (s.emit o).regs = s.regs := rfl
@[simp] theorem State.regs_beginOp (s : State) (g : Grant) : (s.beginOp g).regs = s.regs := rfl
@[simp] theorem State.regs_riReadData (s : State) : s.riReadData.regs = s.regs := rfl
@[simp] theorem State.regs_tagWrite (s : State) (i : Nat) (t : ErrBits) : (s.tagWrite i t).regs = s.regs := rfl

end Sys2Proof.Machine
end

