-- ==== Sys2Proof/Laws/Ops.lean ====
section
/-!
SUPPORT. What each shared operation can do, said once: cursor arithmetic, the two buffer primitives, flow
control, responses.
-/

namespace Sys2Proof.Machine

/-! ## Cursor arithmetic -/

theorem wrap_of_lt {n c : Nat} (h : c < n) : wrap n (c : Int) = c := by
  unfold wrap
  rw [Int.emod_eq_of_lt (by omega) (by omega)]
  rfl

theorem wrap_lt {n : Nat} (h : 0 < n) (x : Int) : wrap n x < n := by
  unfold wrap
  have h1 := Int.emod_nonneg x (b := (n : Int)) (by omega)
  have h2 := Int.emod_lt_of_pos x (b := (n : Int)) (by omega)
  omega

/-- A cursor advanced by one is the next index, or 0 at the end (R81). -/
theorem wrap_succ {n c : Nat} (h : c < n) : wrap n ((c : Int) + 1) = if c + 1 = n then 0 else c + 1 := by
  split
  · next h1 =>
    unfold wrap
    have : ((c : Int) + 1) = (n : Int) := by omega
    rw [this, Int.emod_self]; rfl
  · next h1 =>
    have := wrap_of_lt (n := n) (c := c + 1) (by omega)
    simpa using this

/-- The difference of two cursors (R81). -/
theorem wrap_sub {n h t : Nat} (hh : h < n) (ht : t < n) :
    wrap n ((h : Int) - (t : Int)) = if t ≤ h then h - t else h + n - t := by
  split
  · next hle =>
    have := wrap_of_lt (n := n) (c := h - t) (by omega)
    rwa [Nat.cast_sub hle] at this
  · next hle =>
    have := wrap_of_lt (n := n) (c := h + n - t) (by omega)
    unfold wrap at this ⊢
    rw [← this]
    congr 1
    have e : ((h + n - t : Nat) : Int) = (h : Int) - (t : Int) + (n : Int) := by omega
    rw [e, Int.add_emod_right]

theorem wrap_mod {n : Nat} (c : Nat) : wrap n (c : Int) = c % n := by
  unfold wrap
  rw [← Int.natCast_mod]; rfl

/-- The free space between two cursors (R78). -/
theorem State.free_eq {s : State} {b : Buf} (h : s.CursorsInRange b) :
    s.free b = freeBetween (s.slots b) (s.head b) (s.tail b) := by
  unfold State.free freeBetween State.count
  rw [wrap_sub h.1 h.2]
  obtain ⟨h1, h2⟩ := h
  split
  · have e : s.head b + s.slots b - s.tail b = s.head b - s.tail b + s.slots b := by omega
    rw [e, Nat.add_mod_right, Nat.mod_eq_of_lt (by omega)]
  · rw [Nat.mod_eq_of_lt (by omega)]

/-! ## Parameters -/

/-- A size R7 admits, as a power of two. -/
theorem sizeLegal_iff {a n : Nat} : sizeLegal a n = true ↔ n = 2 ^ Nat.log2 n ∧ 2 ≤ n ∧ Nat.log2 n ≤ a := by
  simp [sizeLegal, and_assoc]

theorem legal_parts (p : Params) :
    sizeLegal p.atomW p.nRx = true ∧ sizeLegal p.atomW p.nTx = true ∧ p.rxcInitLvl ≠ 0#2 ∧
      (p.fcEn = true → p.lowWm < p.highWm ∧ p.highWm ≤ p.nRx - 1) := by
  have h := p.legal
  simp only [RawParams.legal, Bool.and_eq_true, bne_iff_ne, ne_eq, Bool.or_eq_true, Bool.not_eq_true',
    decide_eq_true_eq] at h
  refine ⟨h.1.1.1, h.1.1.2, h.1.2, fun hf => ?_⟩
  rcases h.2 with h | h
  · rw [h] at hf; cases hf
  · exact h

theorem State.two_le_slots (s : State) (b : Buf) : 2 ≤ s.slots b := by
  obtain ⟨h1, h2, -⟩ := legal_parts s.params
  cases b
  · exact (sizeLegal_iff.mp h1).2.1
  · exact (sizeLegal_iff.mp h2).2.1

theorem State.slots_eq_two_pow (s : State) (b : Buf) : s.slots b = 2 ^ Nat.log2 (s.slots b) := by
  obtain ⟨h1, h2, -⟩ := legal_parts s.params
  cases b
  · exact (sizeLegal_iff.mp h1).1
  · exact (sizeLegal_iff.mp h2).1

/-! ## The buffer primitives -/

/-- What `TryPush` can do (R79). -/
theorem State.tryPush_eq (s : State) (b : Buf) (v : Byte) :
    (s.isFull b = true ∧ s.tryPush b v = none) ∨
      (s.isFull b = false ∧ s.tryPush b v =
        some (((s.memWrite b (s.head b) v).setHead b (s.advance b (s.head b))).emit (.push b v))) := by
  unfold State.tryPush
  cases h : s.isFull b <;> simp

/-- What `TryPop` can do (R80). -/
theorem State.tryPop_eq (s : State) (b : Buf) :
    (s.isEmpty b = true ∧ s.tryPop b = none) ∨
      (s.isEmpty b = false ∧ s.tryPop b = some (s.memRead b (s.tail b),
        (s.setTail b (s.advance b (s.tail b))).emit (.pop b (s.memRead b (s.tail b))))) := by
  unfold State.tryPop
  cases h : s.isEmpty b <;> simp

theorem State.memRead_of_read {s : State} {b : Buf} {i : Nat} {v : Byte} (h : (s.mem b).read i = some v) :
    s.memRead b i = v := by simp [State.memRead, h]

theorem State.tagRead_of_read {s : State} {i : Nat} {t : ErrBits} (h : s.rxTag.read i = some t) :
    s.tagRead i = t := by simp [State.tagRead, h]

/-! ## Flow control -/

/-- What `FlowControlAfterPush` can do (R100). -/
theorem State.flowControlAfterPush_eq (s : State) :
    (s.params.fcEn = true ∧ s.fcPaused = false ∧ s.free .rx ≤ s.params.lowWm ∧ s.flowControlAfterPush =
        { s with fcPaused := true, out := { s.out with fcPause := true }, log := .fc .pause :: s.log }) ∨
      ((s.params.fcEn = false ∨ s.fcPaused = true ∨ s.params.lowWm < s.free .rx) ∧ s.flowControlAfterPush = s) := by
  unfold State.flowControlAfterPush
  split
  · next h =>
    simp only [Bool.and_eq_true, Bool.not_eq_true', decide_eq_true_eq] at h
    exact .inl ⟨h.1.1, h.1.2, h.2, rfl⟩
  · next h =>
    refine .inr ⟨?_, rfl⟩
    simp only [Bool.and_eq_true, Bool.not_eq_true', decide_eq_true_eq, not_and, not_le] at h
    cases h1 : s.params.fcEn
    · exact .inl rfl
    · cases h2 : s.fcPaused
      · exact .inr (.inr (h ⟨h1, h2⟩))
      · exact .inr (.inl rfl)

/-- What `FlowControlAfterPop` can do (R101). -/
theorem State.flowControlAfterPop_eq (s : State) :
    (s.params.fcEn = true ∧ s.fcPaused = true ∧ s.params.highWm ≤ s.free .rx ∧ s.flowControlAfterPop =
        { s with fcPaused := false, out := { s.out with fcResume := true }, log := .fc .resume :: s.log }) ∨
      ((s.params.fcEn = false ∨ s.fcPaused = false ∨ s.free .rx < s.params.highWm) ∧ s.flowControlAfterPop = s) := by
  unfold State.flowControlAfterPop
  split
  · next h =>
    simp only [Bool.and_eq_true, decide_eq_true_eq] at h
    exact .inl ⟨h.1.1, h.1.2, h.2, rfl⟩
  · next h =>
    refine .inr ⟨?_, rfl⟩
    simp only [Bool.and_eq_true, decide_eq_true_eq, not_and, not_le] at h
    cases h1 : s.params.fcEn
    · exact .inl rfl
    · cases h2 : s.fcPaused
      · exact .inr (.inl rfl)
      · exact .inr (.inr (h ⟨h1, h2⟩))

/-! ## Responses -/

theorem State.whenInited_true {s t : State} (h : s.inited = true) : s.whenInited t = t := by
  simp [State.whenInited, h]

theorem State.whenInited_false {s t : State} (h : s.inited = false) : s.whenInited t = s.refuse .notInit := by
  simp [State.whenInited, h]

/-- A response alone changes no register and no slot, and is the response of the claims (R69). -/
theorem State.respond_only (s : State) (r : Rsp) : OnlyResponded s r.word (s.respond r) :=
  ⟨rfl, ⟨fun _ => rfl, fun _ => rfl, fun _ => rfl⟩, rfl, rfl, rfl, rfl, rfl, rfl⟩

/-- The word of a response with a result and nothing else (R62). -/
theorem Rsp.word_result (b : Bool) : (Rsp.result b).word = if b then 0x1000#16 else 0x0000#16 := by
  cases b <;> decide

/-- The word of the answer of `FREE` (R62, R84). -/
theorem Rsp.word_value (v : Byte) : (Rsp.value v).word = 0x10#8 ++ v := by
  revert v; decide

/-- The frame error of a byte, of its own or pending (R91, R92). -/
theorem mergeErrors_fe (e : ErrBits) (p : RxPort) :
    (mergeErrors e p.status).getLsbD 0 = (e.getLsbD 0 || p.fe) := by
  simp only [mergeErrors, RxPort.status, BitVec.getLsbD_or, BitVec.getLsbD_append]
  simp

/-- The overrun error of a byte, of its own or pending (R91, R92). -/
theorem mergeErrors_dor (e : ErrBits) (p : RxPort) :
    (mergeErrors e p.status).getLsbD 1 = (e.getLsbD 1 || p.dor) := by
  simp only [mergeErrors, RxPort.status, BitVec.getLsbD_or, BitVec.getLsbD_append]
  simp

/-! ## The port `ri_tx_data` between writes -/

/-- In a step after one that wrote nothing the port is as it was (R172). -/
theorem Outputs.heldTxData_of_no_write {o : Outputs} (h : o.riTxWr = false) : o.heldTxData = o.riTxData := by
  simp [Outputs.heldTxData, h]

/-- In a step after a write the port has no value (log 7). -/
theorem Outputs.heldTxData_of_write {o : Outputs} (h : o.riTxWr = true) : o.heldTxData = none := by
  simp [Outputs.heldTxData, h]

/-- An IDLE step after an edge of reset drives what reset drives (R172). -/
@[simp] theorem Outputs.begin_idle_reset : Outputs.begin .idle Outputs.reset = Outputs.reset := rfl

/-! ## What an outcome is -/

theorem endOutcome_next {a : State} {o : Host.Outcome State Fault Refusal} {t : State}
    (h : endOutcome a o = .next t) : ∃ u, o = .next u ∧ t = State.endOp a u := by
  cases o with
  | next u => exact ⟨u, rfl, by simpa [endOutcome] using h.symm⟩
  | fault r => cases h
  | refused r => cases h

/-- The end of an operation adds at most one entry of `RICFG`. -/
theorem State.endOp_log (a s : State) :
    (s.riCfg = a.riCfg ∧ (State.endOp a s).log = s.log) ∨
      (s.riCfg ≠ a.riCfg ∧ (State.endOp a s).log = .riCfg s.riCfg :: s.log) := by
  unfold State.endOp
  split
  · next h => exact .inl ⟨h, rfl⟩
  · next h => exact .inr ⟨h, rfl⟩

end Sys2Proof.Machine
end

