-- ==== Sys2Proof/Laws/Exec.lean ====
section
/-!
SUPPORT. What each meaning can do, said once: every case with its guard and its next state written as one update of
the state before. A proof about all instructions is one case analysis of `exec_effect`.
-/

namespace Sys2Proof.Machine

/-- A cursor advanced by one, as a remainder (R8, R81). -/
theorem State.advance_mod (s : State) (b : Buf) (c : Nat) : s.advance b c = (c + 1) % s.slots b := by
  simpa [State.advance] using wrap_mod (n := s.slots b) (c + 1)

/-- An advanced cursor is a slot index (R14). -/
theorem State.advance_lt (s : State) (b : Buf) (c : Nat) : s.advance b c < s.slots b := by
  rw [s.advance_mod]
  exact Nat.mod_lt _ (by have := s.two_le_slots b; omega)

/-! ## The next states that are more than a response -/

/-- `SEND` with room, before its response (R105). -/
def State.sent1 (s : State) (v : Byte) : State :=
  { s with
    txMem := s.txMem.write s.headTx v, headTx := (s.headTx + 1) % s.params.nTx, dreArmed := .armed
    log := .push .tx v :: s.log }

/-- `TRYRECV` with a byte, before flow control and its response (R95). -/
def State.popped1 (s : State) : State :=
  { s with
    ovf := false, tailRx := (s.tailRx + 1) % s.params.nRx
    log := .pop .rx (s.memRead .rx s.tailRx) :: s.log }

/-- The response of `TRYRECV` with a byte (R95, R96). -/
def State.poppedRsp (s : State) : Rsp :=
  Rsp.received (.ofTag s.ovf (s.tagRead s.tailRx)) (s.memRead .rx s.tailRx)

/-- `RXC_EVENT` on a full buffer (R91, R93). -/
def State.dropped1 (s : State) : State :=
  { s with
    ovf := true, penderr := mergeErrors s.penderr s.inp.rx.status
    out := { s.out with riRxRd := true }
    inp := { s.inp with rx := { s.inp.rx with req := false } } }

/-- `RXC_EVENT` with room, before flow control (R91). -/
def State.stored1 (s : State) : State :=
  { s with
    rxMem := s.rxMem.write s.headRx s.inp.rx.data
    rxTag := s.rxTag.write s.headRx (mergeErrors s.penderr s.inp.rx.status)
    headRx := (s.headRx + 1) % s.params.nRx
    penderr := 0#2
    out := { s.out with riRxRd := true }
    inp := { s.inp with rx := { s.inp.rx with req := false } }
    log := .push .rx s.inp.rx.data :: s.log }

/-- `DRE_EVENT` with a byte queued (R107). -/
def State.wired1 (s : State) : State :=
  { s with
    tailTx := (s.tailTx + 1) % s.params.nTx
    out := { s.out with riTxWr := true, riTxData := some (s.memRead .tx s.tailTx) }
    inp := { s.inp with dreReq := false }
    log := .wire (s.memRead .tx s.tailTx) :: .pop .tx (s.memRead .tx s.tailTx) :: s.log }

/-- The sender is paused (R100). -/
def State.pause (s : State) : State :=
  { s with fcPaused := true, out := { s.out with fcPause := true }, log := .fc .pause :: s.log }

/-- The sender is resumed (R101). -/
def State.resume (s : State) : State :=
  { s with fcPaused := false, out := { s.out with fcResume := true }, log := .fc .resume :: s.log }

/-- What an instruction can do to a state: its cases, each with its guard and its next state. -/
inductive Effect (s : State) : Instr → State → Prop
  | notInit (i : Instr) (hc : i.isCommand = true) (hw : i.wellFormed = true) (hi : ∀ l b, i ≠ .init l b)
      (h : s.inited = false) : Effect s i (s.refuse .notInit)
  | badFormat (f : FmtBits) (h : fmtLegal f = false) : Effect s (.setFmt f) (s.refuse .illegal)
  | reInit (l : Level) (b : Baud) (h : s.inited = true) : Effect s (.init l b) (s.refuse .reInit)
  | init (l : Level) (b : Baud) (h : s.inited = false) : Effect s (.init l b) ((s.initialise l b).respond Rsp.done)
  | sendFull (v : Byte) (h : s.inited = true) (hf : s.isFull .tx = true) :
      Effect s (.send v) (s.respond (Rsp.result false))
  | send (v : Byte) (h : s.inited = true) (hf : s.isFull .tx = false) :
      Effect s (.send v) ((s.sent1 v).respond Rsp.done)
  | recvEmpty (h : s.inited = true) (he : s.isEmpty .rx = true) :
      Effect s .tryRecv (({ s with ovf := false }).respond (Rsp.received (.ofEmpty s.ovf) 0#8))
  | recv (h : s.inited = true) (he : s.isEmpty .rx = false)
      (hq : s.params.fcEn = false ∨ s.fcPaused = false ∨ s.popped1.free .rx < s.params.highWm) :
      Effect s .tryRecv (s.popped1.respond s.poppedRsp)
  | recvResume (h : s.inited = true) (he : s.isEmpty .rx = false) (hf : s.params.fcEn = true)
      (hp : s.fcPaused = true) (hq : s.params.highWm ≤ s.popped1.free .rx) :
      Effect s .tryRecv (s.popped1.resume.respond s.poppedRsp)
  | hasIn (h : s.inited = true) : Effect s .hasIn (s.respond (Rsp.result (!s.isEmpty .rx)))
  | hasOut (h : s.inited = true) : Effect s .hasOut (s.respond (Rsp.result (!s.isFull .tx)))
  | setRxcLvl (l : Level) (h : s.inited = true) :
      Effect s (.setRxcLvl l) (({ s with rxcLvl := l }).respond Rsp.done)
  | setTxcLvl (l : Level) (h : s.inited = true) :
      Effect s (.setTxcLvl l) (({ s with txcLvl := l }).respond Rsp.done)
  | setDreLvl (l : Level) (h : s.inited = true) :
      Effect s (.setDreLvl l) (({ s with dreLvl := l }).respond Rsp.done)
  | isEmpty (b : Buf) (h : s.inited = true) : Effect s (.isEmpty b) (s.respond (Rsp.result (s.isEmpty b)))
  | isFull (b : Buf) (h : s.inited = true) : Effect s (.isFull b) (s.respond (Rsp.result (s.isFull b)))
  | free (b : Buf) (h : s.inited = true) :
      Effect s (.free b) (s.respond (Rsp.value (freeVal s.draws (s.free b))))
  | setBaud (b : Baud) (h : s.inited = true) : Effect s (.setBaud b) (({ s with baud := b }).respond Rsp.done)
  | setFmt (f : FmtBits) (hf : fmtLegal f = true) (h : s.inited = true) :
      Effect s (.setFmt f) (({ s with fmt := f }).respond Rsp.done)
  | rxcFull (hf : s.isFull .rx = true) : Effect s .rxcEvent s.dropped1
  | rxc (hf : s.isFull .rx = false)
      (hq : s.params.fcEn = false ∨ s.fcPaused = true ∨ s.params.lowWm < s.stored1.free .rx) :
      Effect s .rxcEvent s.stored1
  | rxcPause (hf : s.isFull .rx = false) (hn : s.params.fcEn = true) (hp : s.fcPaused = false)
      (hq : s.stored1.free .rx ≤ s.params.lowWm) : Effect s .rxcEvent s.stored1.pause
  | dreEmpty (he : s.isEmpty .tx = true) : Effect s .dreEvent { s with dreArmed := .disarmed }
  | dre (he : s.isEmpty .tx = false) : Effect s .dreEvent s.wired1

/-! ## Each meaning has one of these effects -/

/-- A command other than `INIT`, `SETFMT` with a bad format apart: refused, or its body. -/
theorem Effect.ofWhenInited {s body : State} {i : Instr} (hc : i.isCommand = true) (hw : i.wellFormed = true)
    (hi : ∀ l b, i ≠ .init l b) (h : s.inited = true → Effect s i body) : Effect s i (s.whenInited body) := by
  cases hs : s.inited
  · rw [State.whenInited_false hs]; exact .notInit i hc hw hi hs
  · rw [State.whenInited_true hs]; exact h hs

theorem State.sendByte_effect {s : State} (v : Byte) (h : s.inited = true) : Effect s (.send v) (s.sendByte v) := by
  unfold State.sendByte
  obtain ⟨hf, e⟩ | ⟨hf, e⟩ := s.tryPush_eq .tx v <;> rw [e]
  · exact .sendFull v h hf
  · have := Effect.send v h hf
    simpa [State.sent1, State.memWrite, State.setMem, State.setHead, State.emit, State.advance_mod, State.mem,
      State.head, State.slots] using this

theorem State.receive_effect {s : State} (h : s.inited = true) : Effect s .tryRecv s.receive := by
  unfold State.receive
  obtain ⟨he, e⟩ | ⟨he, e⟩ := State.tryPop_eq { s with ovf := false } .rx <;> rw [e]
  · exact .recvEmpty h he
  · have e1 : (State.setTail { s with ovf := false } .rx (State.advance { s with ovf := false } .rx s.tailRx)).emit
        (.pop .rx (State.memRead { s with ovf := false } .rx s.tailRx)) = s.popped1 := by
      simp [State.popped1, State.setTail, State.emit, State.advance_mod, State.slots, State.memRead, State.mem]
    show Effect s .tryRecv ((State.flowControlAfterPop ((State.setTail { s with ovf := false } .rx
        (State.advance { s with ovf := false } .rx s.tailRx)).emit
        (.pop .rx (State.memRead { s with ovf := false } .rx s.tailRx)))).respond s.poppedRsp)
    rw [e1]
    obtain ⟨a, b, c, d⟩ | ⟨a, d⟩ := s.popped1.flowControlAfterPop_eq <;> rw [d]
    · exact .recvResume h he a b c
    · exact .recv h he a

theorem execRxcEvent_effect (s : State) :
    Effect s .rxcEvent (s.riReadData.receiveByte s.riData (mergeErrors s.penderr s.riReadStatus)) := by
  unfold State.receiveByte
  obtain ⟨hf, e⟩ | ⟨hf, e⟩ := s.riReadData.tryPush_eq .rx s.riData <;> rw [e]
  · exact .rxcFull hf
  · have e1 : ({ State.tagWrite (((s.riReadData.memWrite .rx (s.riReadData.head .rx) s.riData).setHead .rx
        (s.riReadData.advance .rx (s.riReadData.head .rx))).emit (.push .rx s.riData)) (s.riReadData.head .rx)
        (mergeErrors s.penderr s.riReadStatus) with penderr := 0#2 } : State) = s.stored1 := by
      simp [State.stored1, State.memWrite, State.setMem, State.setHead, State.emit, State.advance_mod, State.mem,
        State.head, State.slots, State.tagWrite, State.riReadData, State.riData, State.riReadStatus]
    show Effect s .rxcEvent (State.flowControlAfterPush { State.tagWrite (((s.riReadData.memWrite .rx
        (s.riReadData.head .rx) s.riData).setHead .rx (s.riReadData.advance .rx (s.riReadData.head .rx))).emit
        (.push .rx s.riData)) (s.riReadData.head .rx) (mergeErrors s.penderr s.riReadStatus) with penderr := 0#2 })
    rw [e1]
    obtain ⟨a, b, c, d⟩ | ⟨a, d⟩ := s.stored1.flowControlAfterPush_eq <;> rw [d]
    · exact .rxcPause hf a b c
    · exact .rxc hf a

theorem execDreEvent_effect (s : State) : Effect s .dreEvent (match s.tryPop .tx with
    | none => { s with dreArmed := .disarmed }
    | some (d, t) => t.riWriteData d) := by
  obtain ⟨he, e⟩ | ⟨he, e⟩ := s.tryPop_eq .tx <;> rw [e]
  · exact .dreEmpty he
  · have := Effect.dre he
    simpa [State.wired1, State.setTail, State.emit, State.advance_mod, State.slots, State.tail,
      State.riWriteData] using this

/-- What an instruction can do. -/
theorem exec_effect {i : Instr} {s t : State} (h : exec i s = .next t) : Effect s i t := by
  cases i with
  | init l b =>
    injection h with h; rw [← h]
    split
    · next hs => exact .reInit l b hs
    · next hs => exact .init l b (by simpa using hs)
  | send v => injection h with h; rw [← h]; exact .ofWhenInited rfl rfl nofun (State.sendByte_effect v)
  | tryRecv => injection h with h; rw [← h]; exact .ofWhenInited rfl rfl nofun State.receive_effect
  | hasIn => injection h with h; rw [← h]; exact .ofWhenInited rfl rfl nofun .hasIn
  | hasOut => injection h with h; rw [← h]; exact .ofWhenInited rfl rfl nofun .hasOut
  | setRxcLvl l => injection h with h; rw [← h]; exact .ofWhenInited rfl rfl nofun (.setRxcLvl l)
  | setTxcLvl l => injection h with h; rw [← h]; exact .ofWhenInited rfl rfl nofun (.setTxcLvl l)
  | setDreLvl l => injection h with h; rw [← h]; exact .ofWhenInited rfl rfl nofun (.setDreLvl l)
  | isEmpty b => injection h with h; rw [← h]; exact .ofWhenInited rfl rfl nofun (.isEmpty b)
  | isFull b => injection h with h; rw [← h]; exact .ofWhenInited rfl rfl nofun (.isFull b)
  | free b => injection h with h; rw [← h]; exact .ofWhenInited rfl rfl nofun (.free b)
  | setBaud b => injection h with h; rw [← h]; exact .ofWhenInited rfl rfl nofun (.setBaud b)
  | setFmt f =>
    injection h with h; rw [← h]
    split
    · next hf => exact .ofWhenInited rfl hf nofun (.setFmt f hf)
    · next hf => exact .badFormat f (by simpa using hf)
  | rxcEvent => injection h with h; rw [← h]; exact execRxcEvent_effect s
  | dreEvent => injection h with h; rw [← h]; exact execDreEvent_effect s

end Sys2Proof.Machine
end

