-- ==== Sys2Proof/Laws/PerInstr.lean ====
section
/-!
SUPPORT. Facts about each instruction as syntax, one lemma a constructor. `RowOfEncoding`: the encoding of an
instruction is what the spec's tables give its mnemonic, a word of its row of R58 or its grant code of R66.
-/

namespace Sys2Proof.Laws.RowOfEncoding

/-- A well-formed command encodes to a word that hits the row of its own mnemonic (R58); a handler event encodes to a
grant code and its mnemonic has no row (R65, R66). -/
def Statement (i : Instr) : Prop :=
  i.wellFormed = true →
    match encode i with
    | .cmd w => i.isCommand = true ∧ ∃ r ∈ cmdRows, r.mnemonic = i.mnemonic ∧ r.hits w = true
    | .grant g => i.isCommand = false ∧ (g = 0b10#2 ∨ g = 0b11#2) ∧ ∀ r ∈ cmdRows, r.mnemonic ≠ i.mnemonic

/-- A word hits a row if it does so bit by bit. -/
theorem hits_of_bits {r : CmdRow} {w : CmdWord}
    (h : ∀ k, k < 32 → (w.getLsbD k && r.mask.getLsbD k) = r.pattern.getLsbD k) : r.hits w = true := by
  simp only [CmdRow.hits, beq_iff_eq]
  apply BitVec.eq_of_getLsbD_eq
  intro k hk
  simpa using h k hk

theorem init (lvl : Level) (baud : Baud) : Statement (.init lvl baud) := fun _ =>
  ⟨rfl, ⟨"INIT", 0x10000000#32, 0xFC000000#32⟩, by decide, rfl, hits_of_bits fun k hk => by
    simp only [packCmd, levelArg, BitVec.getLsbD_append]
    interval_cases k <;> simp⟩

theorem send (b : Byte) : Statement (.send b) := fun _ =>
  ⟨rfl, ⟨"SEND", 0x20000000#32, 0xFFFFFF00#32⟩, by decide, rfl, hits_of_bits fun k hk => by
    simp only [packCmd, byteImm, BitVec.getLsbD_append]
    interval_cases k <;> simp⟩

theorem tryRecv : Statement .tryRecv := fun _ =>
  ⟨rfl, ⟨"TRYRECV", 0x30000000#32, 0xFFFFFFFF#32⟩, by decide, rfl, by decide⟩

theorem hasIn : Statement .hasIn := fun _ =>
  ⟨rfl, ⟨"HASIN", 0x40000000#32, 0xFFFFFFFF#32⟩, by decide, rfl, by decide⟩

theorem hasOut : Statement .hasOut := fun _ =>
  ⟨rfl, ⟨"HASOUT", 0x50000000#32, 0xFFFFFFFF#32⟩, by decide, rfl, by decide⟩

theorem setRxcLvl (lvl : Level) : Statement (.setRxcLvl lvl) := fun _ =>
  ⟨rfl, ⟨"SETRXCLVL", 0x60000000#32, 0xFCFFFFFF#32⟩, by decide, rfl, by revert lvl; decide⟩

theorem setTxcLvl (lvl : Level) : Statement (.setTxcLvl lvl) := fun _ =>
  ⟨rfl, ⟨"SETTXCLVL", 0x70000000#32, 0xFCFFFFFF#32⟩, by decide, rfl, by revert lvl; decide⟩

theorem setDreLvl (lvl : Level) : Statement (.setDreLvl lvl) := fun _ =>
  ⟨rfl, ⟨"SETDRELVL", 0x80000000#32, 0xFCFFFFFF#32⟩, by decide, rfl, by revert lvl; decide⟩

theorem isEmpty (b : Buf) : Statement (.isEmpty b) := fun _ =>
  ⟨rfl, ⟨"ISEMPTY", 0x90000000#32, 0xFEFFFFFF#32⟩, by decide, rfl, by cases b <;> decide⟩

theorem isFull (b : Buf) : Statement (.isFull b) := fun _ =>
  ⟨rfl, ⟨"ISFULL", 0xA0000000#32, 0xFEFFFFFF#32⟩, by decide, rfl, by cases b <;> decide⟩

theorem free (b : Buf) : Statement (.free b) := fun _ =>
  ⟨rfl, ⟨"FREE", 0xB0000000#32, 0xFEFFFFFF#32⟩, by decide, rfl, by cases b <;> decide⟩

theorem setBaud (baud : Baud) : Statement (.setBaud baud) := fun _ =>
  ⟨rfl, ⟨"SETBAUD", 0xC0000000#32, 0xFF000000#32⟩, by decide, rfl, hits_of_bits fun k hk => by
    simp only [packCmd, BitVec.getLsbD_append]
    interval_cases k <;> simp⟩

theorem setFmt (f : FmtBits) : Statement (.setFmt f) := fun _ =>
  ⟨rfl, ⟨"SETFMT", 0xD0000000#32, 0xFFFFFFE0#32⟩, by decide, rfl, by revert f; decide⟩

theorem rxcEvent : Statement .rxcEvent := fun _ => ⟨rfl, .inl rfl, by decide⟩

theorem dreEvent : Statement .dreEvent := fun _ => ⟨rfl, .inr rfl, by decide⟩

end Sys2Proof.Laws.RowOfEncoding
end

