-- ==== Sys2Proof/Laws/Queue.lean ====
section
/-!
SUPPORT. The queue of a buffer, the slots `[tail, head)`: what a stored byte and a taken byte do to it, and how the
cursors and the count move with it.
-/

namespace Sys2Proof.Machine

/-! ## The slots from a cursor on -/

section
variable {w : Nat}

/-- The recursion, with the wrap as a remainder (R81). -/
theorem slotsFrom_succ (n : Nat) (m : Memory w) (k i : Nat) :
    slotsFrom n m (k + 1) i = m.read i :: slotsFrom n m k ((i + 1) % n) := by
  have e : wrap n ((i : Int) + 1) = (i + 1) % n := by simpa using wrap_mod (n := n) (i + 1)
  simp [slotsFrom, e]

theorem slotsFrom_length (n : Nat) (m : Memory w) (k i : Nat) : (slotsFrom n m k i).length = k := by
  induction k generalizing i with
  | zero => rfl
  | succ k ih => simp [slotsFrom, ih]

/-- One more slot, at the far end. -/
theorem slotsFrom_snoc (n : Nat) (m : Memory w) (k i : Nat) (hi : i < n) :
    slotsFrom n m (k + 1) i = slotsFrom n m k i ++ [m.read ((i + k) % n)] := by
  induction k generalizing i with
  | zero => simp [slotsFrom, Nat.mod_eq_of_lt hi]
  | succ k ih =>
    rw [slotsFrom_succ, ih _ (Nat.mod_lt _ (by omega)), slotsFrom_succ n m k i]
    simp only [Nat.mod_add_mod, List.cons_append]
    rw [show i + 1 + k = i + (k + 1) by omega]

/-- A write to a slot outside the run leaves the run. -/
theorem slotsFrom_write (n : Nat) (m : Memory w) (k i j : Nat) (v : BitVec w)
    (h : ∀ x, x < k → (i + x) % n ≠ j) (hi : i < n) :
    slotsFrom n (m.write j v) k i = slotsFrom n m k i := by
  induction k generalizing i with
  | zero => rfl
  | succ k ih =>
    rw [slotsFrom_succ, slotsFrom_succ]
    have h0 : i ≠ j := by have := h 0 (by omega); rwa [Nat.add_zero, Nat.mod_eq_of_lt hi] at this
    rw [Memory.read_write_other _ _ h0, ih]
    · intro x hx
      have := h (x + 1) (by omega)
      rwa [Nat.mod_add_mod, show i + 1 + x = i + (x + 1) by omega]
    · exact Nat.mod_lt _ (by omega)

/-- Two slots of a run shorter than the space differ. -/
theorem slot_ne {n i x k : Nat} (hx : x < k) (hk : k < n) : (i + x) % n ≠ (i + k) % n := by
  intro h
  have h1 : x ≡ k [MOD n] := Nat.ModEq.add_left_cancel' i h
  have h2 := Nat.ModEq.eq_of_lt_of_lt h1 (by omega) hk
  omega

/-- Storing at the far end makes the run one longer. -/
theorem slotsFrom_store (n : Nat) (m : Memory w) (k i : Nat) (v : BitVec w) (hi : i < n) (hk : k < n) :
    slotsFrom n (m.write ((i + k) % n) v) (k + 1) i = slotsFrom n m k i ++ [some v] := by
  rw [slotsFrom_snoc _ _ _ _ hi, slotsFrom_write _ _ _ _ _ _ (fun x hx => slot_ne hx hk) hi,
    Memory.read_write_same]

end

/-! ## Cursors and count -/

theorem State.count_lt (s : State) (b : Buf) : s.count b < s.slots b :=
  wrap_lt (by have := s.two_le_slots b; omega) _

/-- The head is the tail and the count (R75). -/
theorem State.head_of_count {s : State} {b : Buf} (h : s.CursorsInRange b) :
    (s.tail b + s.count b) % s.slots b = s.head b := by
  obtain ⟨h1, h2⟩ := h
  unfold State.count
  rw [wrap_sub h1 h2]
  split
  · rw [show s.tail b + (s.head b - s.tail b) = s.head b by omega, Nat.mod_eq_of_lt h1]
  · rw [show s.tail b + (s.head b + s.slots b - s.tail b) = s.head b + s.slots b by omega, Nat.add_mod_right,
      Nat.mod_eq_of_lt h1]

/-- The count between two cursors, by cases (R75, R81). -/
theorem State.count_cases {s : State} {b : Buf} (h : s.CursorsInRange b) :
    (s.tail b ≤ s.head b ∧ s.count b + s.tail b = s.head b) ∨
      (s.head b < s.tail b ∧ s.count b + s.tail b = s.head b + s.slots b) := by
  obtain ⟨h1, h2⟩ := h
  unfold State.count
  rw [wrap_sub h1 h2]
  split <;> omega

/-- A cursor advanced, by cases (R81). -/
theorem succ_mod_cases {n c : Nat} (h : c < n) :
    (c + 1 < n ∧ (c + 1) % n = c + 1) ∨ (c + 1 = n ∧ (c + 1) % n = 0) := by
  by_cases h1 : c + 1 < n
  · exact .inl ⟨h1, Nat.mod_eq_of_lt h1⟩
  · have h2 : c + 1 = n := by omega
    exact .inr ⟨h2, by rw [h2, Nat.mod_self]⟩

theorem State.isFull_false {s : State} {b : Buf} :
    s.isFull b = false ↔ (s.head b + 1) % s.slots b ≠ s.tail b := by
  simp [State.isFull, State.advance_mod]

theorem State.isFull_true {s : State} {b : Buf} :
    s.isFull b = true ↔ (s.head b + 1) % s.slots b = s.tail b := by
  simp [State.isFull, State.advance_mod]

theorem State.isEmpty_false {s : State} {b : Buf} : s.isEmpty b = false ↔ s.head b ≠ s.tail b := by
  simp [State.isEmpty]

theorem State.isEmpty_true {s : State} {b : Buf} : s.isEmpty b = true ↔ s.head b = s.tail b := by
  simp [State.isEmpty]

/-! ## What a push and a pop of either buffer do to the queue -/

/-- `s'` is `s` with one byte pushed to `b`: the queue is one longer (R79). -/
theorem State.queue_push {s s' : State} {b : Buf} {v : Byte} (h : s.CursorsInRange b) (hf : s.isFull b = false)
    (hn : s'.slots b = s.slots b) (ht : s'.tail b = s.tail b) (hh : s'.head b = (s.head b + 1) % s.slots b)
    (hm : s'.mem b = (s.mem b).write (s.head b) v) :
    s'.CursorsInRange b ∧ s'.count b = s.count b + 1 ∧ s'.queue b = s.queue b ++ [some v] := by
  have hp := s.two_le_slots b
  have hr : s'.CursorsInRange b := by
    refine ⟨?_, ?_⟩
    · rw [hh, hn]; exact Nat.mod_lt _ (by omega)
    · rw [ht, hn]; exact h.2
  have hc : s'.count b = s.count b + 1 := by
    have a := State.count_cases h
    have c := State.count_cases hr
    have hl := s.count_lt b
    have hl' := s'.count_lt b
    rw [State.isFull_false] at hf
    rw [ht, hh, hn] at c
    rw [hn] at hl'
    have d := succ_mod_cases h.1
    obtain ⟨h1, h2⟩ := h
    generalize (s.head b + 1) % s.slots b = z at *
    omega
  refine ⟨hr, hc, ?_⟩
  unfold State.queue
  rw [hn, ht, hc, hm]
  have e := slotsFrom_store (s.slots b) (s.mem b) (s.count b) (s.tail b) v h.2 (s.count_lt b)
  rwa [State.head_of_count h] at e

/-- `s'` is `s` with one byte popped from `b`: the queue loses its oldest byte (R80). -/
theorem State.queue_pop {s s' : State} {b : Buf} (h : s.CursorsInRange b) (he : s.isEmpty b = false)
    (hn : s'.slots b = s.slots b) (hh : s'.head b = s.head b) (ht : s'.tail b = (s.tail b + 1) % s.slots b)
    (hm : s'.mem b = s.mem b) :
    s'.CursorsInRange b ∧ s'.count b + 1 = s.count b ∧ s.queue b = (s.mem b).read (s.tail b) :: s'.queue b := by
  have hp := s.two_le_slots b
  have hr : s'.CursorsInRange b := by
    refine ⟨?_, ?_⟩
    · rw [hh, hn]; exact h.1
    · rw [ht, hn]; exact Nat.mod_lt _ (by omega)
  have hc : s'.count b + 1 = s.count b := by
    have a := State.count_cases h
    have c := State.count_cases hr
    have hl := s.count_lt b
    have hl' := s'.count_lt b
    rw [State.isEmpty_false] at he
    rw [ht, hh, hn] at c
    rw [hn] at hl'
    have d := succ_mod_cases h.2
    obtain ⟨h1, h2⟩ := h
    generalize (s.tail b + 1) % s.slots b = z at *
    omega
  refine ⟨hr, hc, ?_⟩
  unfold State.queue
  rw [hn, ht, hm, ← hc, slotsFrom_succ]

/-- The queue depends on the slots, the cursors and the byte space only. -/
theorem State.queue_congr {s s' : State} {b : Buf} (hn : s'.slots b = s.slots b) (hh : s'.head b = s.head b)
    (ht : s'.tail b = s.tail b) (hm : s'.mem b = s.mem b) :
    s'.count b = s.count b ∧ s'.queue b = s.queue b := by
  have hc : s'.count b = s.count b := by unfold State.count; rw [hn, hh, ht]
  exact ⟨hc, by unfold State.queue; rw [hn, ht, hm, hc]⟩

/-- A queue with equal cursors is empty. -/
theorem State.queue_nil {s : State} {b : Buf} (h : s.head b = s.tail b) : s.queue b = [] := by
  have hc : s.count b = 0 := by simp [State.count, h, wrap]
  unfold State.queue
  rw [hc]
  rfl

end Sys2Proof.Machine
end

