-- ==== Sys2Proof/Laws/Step.lean ====
section
/-!
SUPPORT. What a step can do, said once: it resets, or the arbiter's choice is performed and ended.
-/

namespace Sys2Proof.Machine

/-- Every meaning answers a next state: the block never stops (R12). -/
theorem exec_next (i : Instr) (s : State) : ∃ t, exec i s = .next t := by
  cases i <;> exact ⟨_, rfl⟩

theorem State.perform_next (s : State) : ∃ t, s.perform = .next t := by
  unfold State.perform
  split
  · exact exec_next _ _
  · exact exec_next _ _
  · unfold State.performCommand
    split
    · exact exec_next _ _
    · exact ⟨_, rfl⟩
  · exact ⟨_, rfl⟩

/-- The one operation of a step by grant (R151). -/
inductive Performed (x u : State) : Prop where
  | rxcEvent (hg : x.arbitrate = .rxcEvent) (h : exec .rxcEvent (x.beginOp .rxcEvent) = .next u)
  | dreEvent (hg : x.arbitrate = .dreEvent) (h : exec .dreEvent (x.beginOp .dreEvent) = .next u)
  | command (i : Instr) (hg : x.arbitrate = .fg) (hd : decode x.inp.cmd.word = .ok i)
      (h : exec i (x.beginOp .fg) = .next u)
  | illegal (r : Reject) (hg : x.arbitrate = .fg) (hd : decode x.inp.cmd.word = .reject r)
      (h : u = (x.beginOp .fg).refuse .illegal)
  | idle (hg : x.arbitrate = .idle) (h : u = x.beginOp .idle)

theorem State.performed {x u : State} (h : x.perform = .next u) : Performed x u := by
  unfold State.perform at h
  split at h
  · next hg => exact .rxcEvent hg h
  · next hg => exact .dreEvent hg h
  · next hg =>
    unfold State.performCommand at h
    split at h
    · next i hd => exact .command i hg hd h
    · next r hd => exact .illegal r hg hd (by injection h with h; exact h.symm)
  · next hg => exact .idle hg (by injection h with h; exact h.symm)

/-- What a step can do. -/
theorem step_cases {s t : State} (h : step s = .next t) :
    (s.sample.inp.rst = true ∧ t = s.sample.hardReset) ∨
      (s.sample.inp.rst = false ∧ ∃ u, Performed s.sample u ∧ t = State.endOp s.sample u) := by
  unfold step at h
  split at h
  · next hr => exact .inl ⟨hr, by injection h with h; exact h.symm⟩
  · next hr =>
    obtain ⟨u, hu, ht⟩ := endOutcome_next h
    exact .inr ⟨by simpa using hr, u, State.performed hu, ht⟩

/-- The choice, by the pending conditions (R151, R152). -/
theorem State.arbitrate_cases (s : State) :
    (s.arbitrate = .rxcEvent ∧ s.rxcPending = true ∧ (s.drePending = false ∨ s.dreLvl.toNat ≤ s.rxcLvl.toNat)) ∨
      (s.arbitrate = .dreEvent ∧ s.drePending = true ∧ (s.rxcPending = false ∨ s.rxcLvl.toNat < s.dreLvl.toNat)) ∨
      (s.arbitrate = .fg ∧ s.rxcPending = false ∧ s.drePending = false ∧ s.inp.cmd.valid = true) ∨
      (s.arbitrate = .idle ∧ s.rxcPending = false ∧ s.drePending = false ∧ s.inp.cmd.valid = false) := by
  unfold State.arbitrate
  cases h1 : s.rxcPending <;> cases h2 : s.drePending <;> cases h3 : s.inp.cmd.valid <;>
    by_cases h4 : s.dreLvl.toNat ≤ s.rxcLvl.toNat <;> simp [h4] <;> omega

end Sys2Proof.Machine
end

