-- ==== Sys2Proof/Laws/Traces.lean ====
section
/-!
SUPPORT. What one more entry of the log does to a trace.
-/

namespace Sys2Proof.Machine

variable {α : Type}

/-- A trace of the whole run gains what the newest entry shows. -/
theorem traceOf_cons (f : Obs → Option α) (o : Obs) (l : List Obs) :
    traceOf f (o :: l) = traceOf f l ++ (f o).toList := by
  cases h : f o <;> simp [traceOf, h]

/-- So does a trace since the last reset, if the entry is no reset mark. -/
theorem recent_cons (f : Obs → Option α) {o : Obs} (l : List Obs) (ho : o ≠ .reset) :
    recent f (o :: l) = recent f l ++ (f o).toList := by
  rw [recent, sinceReset, if_neg ho, traceOf_cons]
  rfl

/-- A reset mark starts it anew (R170). -/
theorem recent_reset (f : Obs → Option α) (l : List Obs) : recent f (.reset :: l) = [] := rfl

/-- One more flow-control event (R102). -/
theorem pausedAfter_snoc (p : Option Bool) (l : List FcEvent) (e : FcEvent) :
    pausedAfter p (l ++ [e]) = pausedAfter (pausedAfter p l) [e] := by
  induction l generalizing p with
  | nil => rfl
  | cons a l ih =>
    rcases p with _ | _ | _ <;> cases a <;> simp [pausedAfter, ih]

end Sys2Proof.Machine
end

