-- ==== Sys2Proof/Tests/Slice0.lean ====
section
/-!
SUPPORT. The model's own tests. Expected words and responses are from spec/95_test_vectors.md (named in each comment)
or computed by hand from the rule named; none is the model's own answer. The witnesses at the end meet the hypotheses
of the obligations.
-/

namespace Sys2Proof.Tests

open Sys2Proof.Machine

/-! ## Small states -/

/-- After reset, in an environment that holds its inputs still: what FG and PERIPH do is what a test presents. -/
def fresh : State := { State.reset with rest := .still }

/-- After `INIT 1, 9600` with the default parameters (R121). -/
def ready : State := fresh.initialise 1#2 9600#24

/-- N_RX = 8, `FC_EN` = 1, `LOW_WM` = 2, `HIGH_WM` = 5 (program P3). -/
def flowParams : Params :=
  { nRx := 8, nTx := 4, atomW := 8, rxcInitLvl := 1#2, fcEn := true, lowWm := 2, highWm := 5, legal := by decide }

/-- After `INIT 1, 9600` with flow control. -/
def flowReady : State := { (State.resetWith flowParams).initialise 1#2 9600#24 with rest := .still }

/-- FG presents a word. -/
def present (s : State) (w : CmdWord) : State := { s with inp := { s.inp with cmd := ⟨true, w⟩ } }

/-- PERIPH has a byte. -/
def arrive (s : State) (d : Byte) (fe dor : Bool) : State := { s with inp := { s.inp with rx := ⟨true, d, fe, dor⟩ } }

/-- PERIPH is ready for a byte. -/
def txReady (s : State) : State := { s with inp := { s.inp with dreReq := true } }

/-- The receive buffer with bytes 0xA1, 0xA2, 0xA3 at cursors `h`, `t`. -/
def holding (s : State) (h t : Nat) : State :=
  { s with
    rxMem := [(0, 0xA1#8), (1, 0xA2#8), (2, 0xA3#8)], rxTag := [(0, 0#2), (1, 0#2), (2, 0#2)], headRx := h, tailRx := t }

/-- The transmit buffer with bytes 1, 2, 3 at cursors `h`, `t`, armed. -/
def sending (s : State) (h t : Nat) : State :=
  { s with txMem := [(0, 1#8), (1, 2#8), (2, 3#8)], headTx := h, tailTx := t, dreArmed := .armed }

/-- Something of the state after an outcome. -/
def after {α : Type} (f : State → α) : Host.Outcome State Fault Refusal → Option α
  | .next t => some (f t)
  | .fault _ => none
  | .refused _ => none

/-- The response of the command `w`, presented alone. -/
def answer (s : State) (w : CmdWord) : Option RspWord := after (·.out.rsp) (step (present s w))

/-! ## WellFormed refuses what is no instruction (R58, R135) -/

theorem test_setFmt_reserved_pmode_is_ill_formed : (Instr.setFmt 0b00100#5).wellFormed = false := by decide

theorem test_setFmt_reserved_pmode_all_sizes_ill_formed :
    ∀ f : FmtBits, f.extractLsb' 2 2 = 1#2 → (Instr.setFmt f).wellFormed = false := by decide

/-- R135: 24 of the 32 values are legal. -/
theorem test_24_legal_formats :
    (List.range 32).countP (fun k => (Instr.setFmt (BitVec.ofNat 5 k)).wellFormed) = 24 := by decide

/-- V-ENC-1: 0x03 is 8 data bits, no parity, 1 stop bit; 0x1B even parity, 2 stop bits; 0x0C 5 bits, odd, 1. -/
theorem test_frame_formats :
    frameFormat 0x03#5 = some ⟨8, .none, 1⟩ ∧ frameFormat 0x1B#5 = some ⟨8, .even, 2⟩ ∧
      frameFormat 0x0C#5 = some ⟨5, .odd, 1⟩ ∧ frameFormat 0x04#5 = none := by decide

/-! ## Decoding: the words of V-ENC-1, one theorem a constructor -/

theorem test_decode_init : decode 0x11002580#32 = .ok (.init 1#2 9600#24) ∧
    decode 0x13FFFFFF#32 = .ok (.init 3#2 16777215#24) ∧ decode 0x10000000#32 = .ok (.init 0#2 0#24) := by decide
theorem test_decode_send : decode 0x20000048#32 = .ok (.send 0x48#8) ∧
    decode 0x200000FF#32 = .ok (.send 0xFF#8) := by decide
theorem test_decode_tryRecv : decode 0x30000000#32 = .ok .tryRecv := by decide
theorem test_decode_hasIn : decode 0x40000000#32 = .ok .hasIn := by decide
theorem test_decode_hasOut : decode 0x50000000#32 = .ok .hasOut := by decide
theorem test_decode_setRxcLvl : decode 0x63000000#32 = .ok (.setRxcLvl 3#2) := by decide
theorem test_decode_setTxcLvl : decode 0x72000000#32 = .ok (.setTxcLvl 2#2) := by decide
theorem test_decode_setDreLvl : decode 0x81000000#32 = .ok (.setDreLvl 1#2) := by decide
theorem test_decode_isEmpty : decode 0x90000000#32 = .ok (.isEmpty .rx) ∧
    decode 0x91000000#32 = .ok (.isEmpty .tx) := by decide
theorem test_decode_isFull : decode 0xA0000000#32 = .ok (.isFull .rx) ∧
    decode 0xA1000000#32 = .ok (.isFull .tx) := by decide
theorem test_decode_free : decode 0xB0000000#32 = .ok (.free .rx) ∧ decode 0xB1000000#32 = .ok (.free .tx) := by
  decide
theorem test_decode_setBaud : decode 0xC001C200#32 = .ok (.setBaud 115200#24) := by decide
theorem test_decode_setFmt : decode 0xD000001B#32 = .ok (.setFmt 0x1B#5) := by decide
/-- R66: grant codes 0b10 and 0b11. -/
theorem test_decode_events : decodeGrant 0b10#2 = .ok .rxcEvent ∧ decodeGrant 0b11#2 = .ok .dreEvent ∧
    decodeGrant 0b00#2 = .reject .reservedOp ∧ decodeGrant 0b01#2 = .reject .reservedOp := by decide

/-- V-ENC-2, lines 3 to 7 and 10 to 19: the refused words. -/
theorem test_decode_rejects :
    [0x00000000#32, 0xE0000000#32, 0xF0000000#32, 0xFFFFFFFF#32].all
        (fun w => decode w == .reject .reservedOp) = true ∧
      [0x14002580#32, 0x21000041#32, 0x20000141#32, 0x30000001#32, 0x64000000#32, 0x60000001#32, 0x92000000#32,
        0xD0000020#32, 0xC1000005#32].all (fun w => decode w == .reject .mustBeZero) = true ∧
      decode 0xD0000004#32 = .reject .reservedPmode := by decide

/-- The table's rows reach the decoder with their own numbers of bits. -/
theorem test_table_words : decodeTableWord 32 0x30000000 = some .tryRecv ∧ decodeTableWord 32 0xD0000004 = none ∧
    decodeTableWord 8 2 = some .rxcEvent ∧ decodeTableWord 8 3 = some .dreEvent := by decide

/-- No two rows of R58 share a word. -/
theorem test_rows_disjoint :
    cmdRows.Pairwise (fun a b => a.pattern &&& (a.mask &&& b.mask) ≠ b.pattern &&& (a.mask &&& b.mask)) := by decide

/-! ## One step of each instruction -/

/-- V-ENC-2, lines 1, 3, 8: before `INIT`. -/
theorem test_before_init : answer fresh 0x20000041#32 = some 0xC000#16 ∧
    answer fresh 0x00000000#32 = some 0xA000#16 ∧ answer fresh 0x11002580#32 = some 0x1000#16 := by decide

/-- R121: after `INIT 2, 9600` the transmit interrupt is disarmed and its driven level 0 (S8). -/
theorem test_init : after (fun t => (t.inited, t.dreLvl, t.riCfg))
      (step (present fresh 0x12002580#32)) =
    some (true, 2#2, ⟨1#2, 0#2, 0#2, 9600#24, 0b00011#5, true, true⟩) := by decide

/-- V-ENC-2, line 9. -/
theorem test_init_again : answer ready 0x11002580#32 = some 0xE000#16 := by decide

/-- S2, line 3 and 4: the third byte fills the buffer, the fourth is refused room. -/
theorem test_send : after (fun t => (t.out.rsp, t.headTx, t.txMem.read 2, t.dreArmed))
      (step (present (sending ready 2 0) 0x20000003#32)) = some (0x1000#16, 3, some 3#8, .armed) := by decide

theorem test_send_full : after (fun t => (t.out.rsp, t.headTx, t.txMem.read 3))
      (step (present (sending ready 3 0) 0x20000004#32)) = some (0x0000#16, 3, none) := by decide

/-- S5: the first `TRYRECV` after an overflow is 0x14A1. -/
theorem test_tryRecv : after (fun t => (t.out.rsp, t.tailRx, t.ovf))
      (step (present { holding ready 3 0 with ovf := true } 0x30000000#32)) = some (0x14A1#16, 1, false) := by decide

/-- V-RX-1: both error flags come out with the byte, 0x135A. -/
theorem test_tryRecv_errors : after (fun t => t.out.rsp)
      (step (present { ready with rxMem := [(0, 0x5A#8)], rxTag := [(0, 0b11#2)], headRx := 1 } 0x30000000#32)) =
    some 0x135A#16 := by decide

/-- V-RX-4, and HASIN of an empty buffer. -/
theorem test_hasIn : answer (holding ready 1 0) 0x40000000#32 = some 0x1000#16 ∧
    answer ready 0x40000000#32 = some 0x0000#16 := by decide

/-- S2, columns HASOUT, ISFULL TX, ISEMPTY TX, FREE TX of line 3. -/
theorem test_queries_full_tx : answer (sending ready 3 0) 0x50000000#32 = some 0x0000#16 ∧
    answer (sending ready 3 0) 0xA1000000#32 = some 0x1000#16 ∧
    answer (sending ready 3 0) 0x91000000#32 = some 0x0000#16 ∧
    answer (sending ready 3 0) 0xB1000000#32 = some 0x1000#16 := by decide

/-- S8: FREE RX after INIT; and across the wrap (V-BUF-1: head 1, tail 3, Count 2, so Free 1). -/
theorem test_free : answer ready 0xB0000000#32 = some 0x1003#16 ∧
    answer (holding ready 1 3) 0xB0000000#32 = some 0x1001#16 := by decide

/-- V-BUF-1, the full pair (1, 2) and the empty pair (2, 2). -/
theorem test_isFull_isEmpty_wrapped : answer (holding ready 1 2) 0xA0000000#32 = some 0x1000#16 ∧
    answer (holding ready 2 2) 0x90000000#32 = some 0x1000#16 := by decide

/-- V-ENC-2, lines 20 to 23, 18. -/
theorem test_setters :
    after (fun t => (t.out.rsp, t.rxcLvl)) (step (present ready 0x63000000#32)) = some (0x1000#16, 3#2) ∧
    after (fun t => (t.out.rsp, t.txcLvl)) (step (present ready 0x72000000#32)) = some (0x1000#16, 2#2) ∧
    after (fun t => (t.out.rsp, t.dreLvl)) (step (present ready 0x80000000#32)) = some (0x1000#16, 0#2) ∧
    after (fun t => (t.out.rsp, t.baud)) (step (present ready 0xC001C200#32)) = some (0x1000#16, 115200#24) ∧
    after (fun t => (t.out.rsp, t.fmt)) (step (present ready 0xD000001B#32)) = some (0x1000#16, 0b11011#5) := by
  decide

/-- V-ENC-2, line 16: FMT unchanged. -/
theorem test_setFmt_reserved : after (fun t => (t.out.rsp, t.fmt)) (step (present ready 0xD0000004#32)) =
    some (0xA000#16, 0b00011#5) := by decide

/-- P2, line 7: the pending overrun joins the tag, the head wraps from 3 to 0. -/
theorem test_rxcEvent : after (fun t => (t.headRx, t.rxMem.read 3, t.rxTag.read 3, t.penderr, t.inp.rx.req))
      (step (arrive { holding ready 3 1 with penderr := 0b10#2 } 0x35#8 false false)) =
    some (0, some 0x35#8, some 0b10#2, 0#2, false) := by decide

/-- P2, line 5: dropped, the errors stay pending. -/
theorem test_rxcEvent_full : after (fun t => (t.headRx, t.ovf, t.penderr, t.out.riRxRd))
      (step (arrive (holding ready 3 0) 0x34#8 false true)) = some (3, true, 0b10#2, true) := by decide

/-- P3, line 6: the pause comes as Free(RX) reaches 2, one event. -/
theorem test_rxcEvent_pauses : after (fun t => (t.fcPaused, t.out.fcPause, t.free .rx))
      (step (arrive { flowReady with headRx := 4 } 0x64#8 false false)) = some (true, true, 2) := by decide

/-- P3, line 13: the resume comes as Free(RX) reaches 5. -/
theorem test_tryRecv_resumes : after (fun t => (t.fcPaused, t.out.fcResume, t.free .rx, t.out.rsp))
      (step (present { flowReady with
          headRx := 7, tailRx := 4, fcPaused := true, rxMem := [(4, 0x64#8)], rxTag := [(4, 0#2)] } 0x30000000#32)) =
    some (false, true, 5, 0x1064#16) := by decide

/-- P1, line 4. -/
theorem test_dreEvent : after (fun t => (t.tailTx, t.wireTrace, t.dreArmed, t.inp.dreReq))
      (step (txReady (sending ready 2 0))) = some (1, [1#8], .armed, false) := by decide

/-- P1, line 6: disarm, no write, the request stays. -/
theorem test_dreEvent_empty : after (fun t => (t.tailTx, t.wireTrace, t.dreArmed, t.inp.dreReq, t.riCfg.dreLvl))
      (step (txReady (sending ready 2 2))) = some (2, [], .disarmed, true, 0#2) := by decide

/-- V-ARB-1: at equal level receive first, at level 3 transmit first. -/
theorem test_arbiter : after (·.out.grant) (step (txReady (arrive (sending ready 1 0) 0x77#8 false false))) =
      some .rxcEvent ∧
    after (·.out.grant) (step (txReady (arrive { sending ready 1 0 with dreLvl := 3#2 } 0x77#8 false false))) =
      some .dreEvent := by decide

/-- V-CFG-3: a request before INIT is not granted. -/
theorem test_no_event_before_init : after (·.out.grant) (step (arrive fresh 0x99#8 false false)) =
    some .idle := by decide

/-- R170 (V-RST-1): reset clears, with a request and a command on the ports. -/
theorem test_reset : after (fun t => (t.regs == State.reset.regs, t.out.rspValid, t.log.head?))
      (step { present (arrive (sending ready 2 1) 0x10#8 false false) 0x30000000#32 with
        inp := ⟨true, ⟨true, 0x30000000#32⟩, ⟨true, 0x10#8, false, false⟩, true⟩ }) =
    some (true, false, some .reset) := by decide

/-- The very next step from reset runs a table word (log 10): a command is granted, an event is granted. -/
theorem test_withFetchWord : after (fun t => (t.out.grant, t.out.rsp)) (step (State.reset.withFetchWord 32 0x11002580)) =
      some (.fg, 0x1000#16) ∧
    after (·.out.grant) (step (State.reset.withFetchWord 8 2)) = some .rxcEvent ∧
    after (·.out.grant) (step (State.reset.withFetchWord 8 3)) = some .dreEvent := by decide

/-- R172: two IDLE steps after reset `ri_tx_data` is still 0; a step that writes shows its byte. -/
theorem test_ri_tx_data : ((after id (step fresh)).bind fun t => after (·.out.riTxData) (step t)) =
      some (some 0#8) ∧
    after (·.out.riTxData) (step (present fresh 0x11002580#32)) = some (some 0#8) ∧
    after (·.out.riTxData) (step (txReady (sending ready 2 0))) = some (some 1#8) := by decide

/-- R72, textual form. -/
theorem test_text : (Line.command 0x11002580#32).text = some "INIT 1, 9600" ∧
    (Line.command 0x91000000#32).text = some "ISEMPTY TX" ∧ (Line.command 0x30000000#32).text = some "TRYRECV" := by
  decide

/-! ## Witnesses: the hypotheses of each obligation hold together somewhere -/

/-- A state with one byte of each buffer queued, at the wrap: head 0, tail 3. -/
def wrapped : State :=
  { sending (holding ready 0 3) 0 3 with
    rxMem := [(3, 0xEE#8)], rxTag := [(3, 0b01#2)], txMem := [(3, 0xDD#8)] }

/-- The invariant of an initialised state, from what can be computed. -/
theorem inv_of_checks {s : State} (hi : s.inited = true)
    (hc : (s.headRx < s.params.nRx ∧ s.tailRx < s.params.nRx) ∧ s.headTx < s.params.nTx ∧ s.tailTx < s.params.nTx)
    (hm : (s.rxMem.wf = true ∧ s.rxMem.inBounds s.params.nRx = true) ∧
      (s.rxTag.wf = true ∧ s.rxTag.inBounds s.params.nRx = true) ∧
      s.txMem.wf = true ∧ s.txMem.inBounds s.params.nTx = true)
    (hq : (∀ x ∈ s.queue .rx, x ≠ none) ∧ (∀ x ∈ s.tagQueue, x ≠ none) ∧ ∀ x ∈ s.queue .tx, x ≠ none)
    (hf : (s.ovf = true → s.isFull .rx = true) ∧ (s.dreArmed = .disarmed → s.isEmpty .tx = true))
    (hp : (s.params.fcEn = true → s.fcPaused = false → s.params.lowWm < s.free .rx) ∧
      (s.params.fcEn = true → s.fcPaused = true → s.free .rx < s.params.highWm) ∧
      (s.params.fcEn = false → s.fcPaused = false))
    (he : fmtLegal s.fmt = true ∧ s.rxEn = true ∧ s.txEn = true) : s.Inv where
  rxCursors := hc.1
  txCursors := hc.2
  rxMemWf := hm.1
  rxTagWf := hm.2.1
  txMemWf := hm.2.2
  rxWritten := hq.1
  tagWritten := hq.2.1
  txWritten := hq.2.2
  ovfFull := hf.1
  disarmedEmpty := hf.2
  runningAboveLow := hp.1
  pausedBelowHigh := hp.2.1
  fcAbsent := hp.2.2
  fmtLegal := he.1
  idleBeforeInit := fun h => by rw [hi] at h; cases h
  enabledAfterInit := fun _ => he.2

theorem ready_inv : ready.Inv :=
  inv_of_checks (by decide) (by decide) (by decide) (by decide +kernel) (by decide) (by decide) (by decide)

theorem wrapped_inv : wrapped.Inv :=
  inv_of_checks (by decide) (by decide) (by decide) (by decide +kernel) (by decide) (by decide) (by decide)

/-- Paused with `Free(RX)` = 2, one event out. -/
def flowPaused : State :=
  { flowReady with
    headRx := 5, fcPaused := true, rxMem := (List.range 5).map fun k => (k, 0x60#8)
    rxTag := (List.range 5).map fun k => (k, 0#2)
    log := .fc .pause :: (List.range 5).map fun _ => .push .rx 0x60#8 }

theorem flowPaused_inv : flowPaused.Inv :=
  inv_of_checks (by decide) (by decide) (by decide) (by decide +kernel) (by decide) (by decide) (by decide)

theorem witness_DecodeInvertsEncode : (Instr.setFmt 0b11111#5).wellFormed = true ∧
    (Instr.init 3#2 0xFFFFFF#24).wellFormed = true ∧ Instr.dreEvent.wellFormed = true := by decide

theorem witness_EncodeInvertsDecode : decodeCode (.cmd 0x1201C200#32) = .ok (.init 2#2 115200#24) ∧
    decodeCode (.grant 0b11#2) = .ok .dreEvent := by decide

/-- A row that is hit, the row of `SETFMT` hit by a reserved format, a word that hits none. -/
theorem witness_DecodeFollowsMatchMaskTable :
    (⟨"SEND", 0x20000000#32, 0xFFFFFF00#32⟩ : CmdRow) ∈ cmdRows ∧
    CmdRow.hits ⟨"SEND", 0x20000000#32, 0xFFFFFF00#32⟩ 0x200000FF#32 = true ∧
    (⟨"SETFMT", 0xD0000000#32, 0xFFFFFFE0#32⟩ : CmdRow) ∈ cmdRows ∧
    CmdRow.hits ⟨"SETFMT", 0xD0000000#32, 0xFFFFFFE0#32⟩ 0xD0000004#32 = true ∧
    (0xD0000004#32 : CmdWord).extractLsb' 2 2 = 1#2 ∧ ∀ r ∈ cmdRows, r.hits 0xF0000000#32 = false := by decide

theorem witness_OperandsAreFieldsOfTheWord : decode 0x13FFFFFF#32 = .ok (.init 3#2 0xFFFFFF#24) ∧
    decode 0x200000FF#32 = .ok (.send 0xFF#8) ∧ decode 0x63000000#32 = .ok (.setRxcLvl 3#2) ∧
    decode 0x72000000#32 = .ok (.setTxcLvl 2#2) ∧ decode 0x80000000#32 = .ok (.setDreLvl 0#2) ∧
    decode 0x91000000#32 = .ok (.isEmpty .tx) ∧ decode 0xA0000000#32 = .ok (.isFull .rx) ∧
    decode 0xB1000000#32 = .ok (.free .tx) ∧ decode 0xC0FFFFFF#32 = .ok (.setBaud 0xFFFFFF#24) ∧
    decode 0xD000001F#32 = .ok (.setFmt 0x1F#5) := by decide

theorem witness_IllegalWordsAreRefused : (present ready 0xD0000004#32).sample.inp.rst = false ∧
    (present ready 0xD0000004#32).sample.arbitrate = .fg ∧ IllegalWord (present ready 0xD0000004#32).sample.inp.cmd.word := by
  unfold IllegalWord; decide

/-- A word for each of the four causes, in states of both values of `INITED`. -/
theorem witness_RefusalCodesFollowTheCause :
    (present fresh 0x20000041#32).sample.arbitrate = .fg ∧ (present ready 0x11002580#32).sample.arbitrate = .fg ∧
    (present ready 0x20000041#32).sample.arbitrate = .fg ∧ (present ready 0x21000041#32).sample.arbitrate = .fg ∧
    (present fresh 0x20000041#32).sample.inp.rst = false ∧ (present ready 0x11002580#32).sample.inp.rst = false ∧
    State.reset.inited = false ∧ ready.inited = true ∧
    (0x20000041#32 : CmdWord).extractLsb' 28 4 ≠ 0x1#4 ∧ (0x11002580#32 : CmdWord).extractLsb' 28 4 = 0x1#4 := by
  decide

theorem witness_RefusalCodes_legal_send : ¬ IllegalWord 0x20000041#32 := by unfold IllegalWord; decide
theorem witness_RefusalCodes_legal_init : ¬ IllegalWord 0x11002580#32 := by unfold IllegalWord; decide
theorem witness_RefusalCodes_illegal : IllegalWord 0x21000041#32 := by unfold IllegalWord; decide

theorem witness_RefusedCommandChangesNothing :
    after (fun t => (t.out.rspValid, (Rsp.ofWord t.out.rsp).err)) (step (present ready 0x11002580#32)) =
      some (true, true) := by decide

theorem witness_StepRunsTheDecodedCommand : (present ready 0x30000000#32).sample.inp.rst = false ∧
    (present ready 0x30000000#32).sample.arbitrate = .fg ∧
    decode (present ready 0x30000000#32).sample.inp.cmd.word = .ok .tryRecv := by decide

/-- Each grant of `StepRunsTheGrantedEvent`, and each clause of `ArbiterGrantsByLevel`, the tie among them. -/
theorem witness_StepRunsTheGrantedEvent :
    (arrive ready 1#8 false false).sample.arbitrate = .rxcEvent ∧ (txReady (sending ready 1 0)).sample.arbitrate = .dreEvent ∧
    ready.sample.arbitrate = .idle ∧ ready.sample.inp.rst = false := by decide

theorem witness_ArbiterGrantsByLevel :
    (txReady (arrive (sending ready 1 0) 0x77#8 false false)).rxcPending = true ∧
    (txReady (arrive (sending ready 1 0) 0x77#8 false false)).drePending = true ∧
    (txReady (arrive (sending ready 1 0) 0x77#8 false false)).dreLvl = 1#2 ∧
    (txReady (arrive (sending ready 1 0) 0x77#8 false false)).rxcLvl = 1#2 ∧
    (present ready 0#32).rxcPending = false ∧ (present ready 0#32).drePending = false ∧
    (present ready 0#32).inp.cmd.valid = true ∧ ready.inp.cmd.valid = false := by decide

theorem witness_HandlerEventsCommute : ∃ a b c d, exec .rxcEvent wrapped = .next a ∧ exec .dreEvent a = .next b ∧
    exec .dreEvent wrapped = .next c ∧ exec .rxcEvent c = .next d := ⟨_, _, _, _, rfl, rfl, rfl, rfl⟩

/-- A command waits for a pending event, FG keeping its handshake over a frame that drives nothing. -/
theorem witness_HandlersPreemptTheForeground :
    let s : State := { present (arrive ready 1#8 false false) 0x40000000#32 with script := [⟨none, none, none, none⟩] }
    s.sample.inp.rst = false ∧ s.sample.handlerPending = true ∧ s.inp.cmd.valid = true ∧
      s.nextFrame.keepsCommand s.inp := ⟨by decide, by decide, by decide, nofun⟩

/-- PERIPH keeps its request in a step that serves a command. -/
theorem witness_RequestsStayUntilServed :
    let s : State := present { arrive ready 1#8 false false with rxcLvl := 0#2, script := [⟨none, none, none, none⟩] } 0x40000000#32
    s.nextFrame.keepsRequest s.inp ∧ s.inp.rx.req = true ∧
      after (·.out.riRxRd) (step s) = some false := ⟨nofun, by decide, by decide⟩

theorem witness_TracesRecordTheOutputs : ready.sample.inp.rst = false ∧
    ({ ready with inp := { ready.inp with rst := true } } : State).sample.inp.rst = true ∧
    after (·.out.grant) (step ready) = some .idle := by decide

theorem witness_DataRegisterAccessedExactlyByEvents :
    after (fun t => (t.out.grant, t.out.riTxWr)) (step (txReady (sending ready 2 0))) = some (.dreEvent, true) ∧
    (txReady (sending ready 2 0)).sample.inp.rst = false ∧ (sending ready 2 0).txMem.read 0 = some 1#8 := by decide

theorem witness_ResponseExactlyWhenCommandPerformed :
    after (fun t => (t.out.grant, t.out.rspValid)) (step (present ready 0x40000000#32)) = some (.fg, true) ∧
    after (fun t => (t.out.grant, t.out.rspValid)) (step (arrive ready 1#8 false false)) = some (.rxcEvent, false) := by
  decide

theorem witness_OnlyInitSetsAndOnlyResetClearsInited :
    State.reset.inited = false ∧ after (·.inited) (step (present fresh 0x11002580#32)) = some true ∧
    ready.inited = true ∧
    after (·.inited) (step { ready with inp := { ready.inp with rst := true } }) = some false := by decide

/-- The cursors of the primitives' statements at both ends of the range, and across the wrap. -/
theorem witness_cursors : (holding ready 3 0).CursorsInRange .rx ∧ (holding ready 0 3).CursorsInRange .rx ∧
    wrapped.CursorsInRange .tx ∧ ready.CursorsInRange .rx :=
  ⟨⟨by decide, by decide⟩, ⟨by decide, by decide⟩, ⟨by decide, by decide⟩, ⟨by decide, by decide⟩⟩

theorem witness_FreeCountsPushesThatSucceed : wrapped.CursorsInRange .tx ∧ ∃ t, wrapped.tryPush .tx 5#8 = some t :=
  ⟨⟨by decide, by decide⟩, _, rfl⟩

theorem witness_queries : ready.inited = true ∧ wrapped.inited = true ∧ wrapped.CursorsInRange .rx ∧
    freeBetween (wrapped.slots .rx) (wrapped.head .rx) (wrapped.tail .rx) < 256 :=
  ⟨by decide, by decide, ⟨by decide, by decide⟩, by decide⟩

/-- Buffers of 512 slots, which R6 allows with an `ATOMW` of 9. -/
def wideParams : Params :=
  { nRx := 512, nTx := 512, atomW := 9, rxcInitLvl := 1#2, fcEn := false, lowWm := 0, highWm := 1,
    legal := by decide +kernel }

/-- The free space 255, the last that fits `VAL`, and 256, the first that does not. -/
theorem witness_FreeQueryAnswers_boundary :
    let s : State := { (State.resetWith wideParams).initialise 1#2 0#24 with headRx := 256, headTx := 255 }
    s.inited = true ∧ s.CursorsInRange .rx ∧ s.CursorsInRange .tx ∧
      freeBetween (s.slots .rx) (s.head .rx) (s.tail .rx) = 255 ∧
      freeBetween (s.slots .tx) (s.head .tx) (s.tail .tx) = 256 :=
  ⟨rfl, ⟨by decide, by decide⟩, ⟨by decide, by decide⟩, by decide, by decide⟩

/-- The free space 255 is answered in `VAL`; R78 gives it, R84 the word. -/
theorem witness_FreeQueryAnswers_255 :
    after (·.out.rsp) (exec (.free .rx) { (State.resetWith wideParams).initialise 1#2 0#24 with headRx := 256 }) =
      some 0x10FF#16 := by decide +kernel

theorem witness_SendQueuesAndArms : wrapped.inited = true ∧ (wrapped.headTx + 1) % wrapped.params.nTx ≠ wrapped.tailTx ∧
    (sending ready 3 1).inited = true ∧ ((sending ready 3 1).headTx + 1) % (sending ready 3 1).params.nTx ≠ 1 := by
  decide

theorem witness_SendOnFullBufferBlocks : (sending ready 3 0).inited = true ∧
    ((sending ready 3 0).headTx + 1) % (sending ready 3 0).params.nTx = (sending ready 3 0).tailTx := by decide

theorem witness_DreEventWritesTheOldestByte : wrapped.headTx ≠ wrapped.tailTx ∧
    wrapped.txMem.read wrapped.tailTx = some 0xDD#8 := by decide

theorem witness_DreEventDisarmsOnEmptyBuffer : (sending ready 2 2).headTx = (sending ready 2 2).tailTx := by decide

theorem witness_DisarmStopsTheStorm :
    (txReady (sending ready 2 2)).sample.inp.rst = false ∧ (txReady (sending ready 2 2)).sample.arbitrate = .dreEvent ∧
    (txReady (sending ready 2 2)).headTx = (txReady (sending ready 2 2)).tailTx ∧
    (present ready 0x81000000#32).dreArmed = .disarmed ∧
    after (·.out.grant) (step (present ready 0x81000000#32)) = some .fg ∧
    decode (present ready 0x81000000#32).sample.inp.cmd.word = .ok (.setDreLvl 1#2) := by decide

theorem witness_OnlySendArms : after (·.dreArmed) (exec (.send 1#8) ready) = some .armed ∧
    after (·.dreArmed) (exec .dreEvent (sending ready 2 2)) = some .disarmed ∧
    after (·.dreArmed) (exec (.init 1#2 0#24) { State.reset with dreArmed := .armed }) = some .disarmed := by decide

/-- Room without flow control, room with a pause due at exactly the low mark, room with none due. -/
theorem witness_RxcEventBuffersTheByte : wrapped.CursorsInRange .rx ∧
    (wrapped.headRx + 1) % wrapped.params.nRx ≠ wrapped.tailRx ∧
    ({ flowReady with headRx := 4 } : State).CursorsInRange .rx ∧
    freeBetween 8 ((4 + 1) % 8) 0 = flowParams.lowWm ∧ freeBetween 8 ((3 + 1) % 8) 0 = flowParams.lowWm + 1 :=
  ⟨⟨by decide, by decide⟩, by decide, ⟨by decide, by decide⟩, by decide, by decide⟩

theorem witness_RxcEventOverflowDropsNewest :
    ((holding ready 3 0).headRx + 1) % (holding ready 3 0).params.nRx = (holding ready 3 0).tailRx := by decide

/-- A byte queued without flow control, with a resume due at exactly the high mark, with none due. -/
theorem witness_TryRecvReturnsTheOldestByte : wrapped.inited = true ∧ wrapped.CursorsInRange .rx ∧
    wrapped.headRx ≠ wrapped.tailRx ∧ flowPaused.inited = true ∧ flowPaused.CursorsInRange .rx ∧
    flowPaused.fcPaused = true ∧ freeBetween 8 5 ((2 + 1) % 8) = flowParams.highWm ∧
    freeBetween 8 5 ((1 + 1) % 8) + 1 = flowParams.highWm :=
  ⟨by decide, ⟨by decide, by decide⟩, by decide, by decide, ⟨by decide, by decide⟩, by decide, by decide, by decide⟩

theorem witness_TryRecvOnEmptyBuffer : ({ ready with ovf := true } : State).inited = true ∧
    ({ ready with ovf := true } : State).headRx = ({ ready with ovf := true } : State).tailRx := by decide

theorem witness_OverflowFlagUntilInspected : ready.Inv ∧ ready.inited = true ∧
    (∃ t, exec .tryRecv ready = .next t) ∧
    (∃ t, exec .hasIn { holding ready 3 0 with ovf := true } = .next t) ∧
    ({ holding ready 3 0 with ovf := true } : State).Inv := by
  refine ⟨ready_inv, by decide, ⟨_, rfl⟩, ⟨_, rfl⟩, ?_⟩
  exact inv_of_checks (by decide) (by decide) (by decide) (by decide +kernel) (by decide) (by decide) (by decide)

theorem witness_InitSetsUpTheHandle : State.reset.inited = false := by decide

theorem witness_ReinitIsRefused : ready.inited = true ∧ ready.sample.inp.rst = false := by decide

theorem witness_CommandsBeforeInitAreRefused : (Instr.setFmt 0b11000#5).isCommand = true ∧
    (Instr.setFmt 0b11000#5).wellFormed = true ∧ (∀ l b, Instr.setFmt 0b11000#5 ≠ .init l b) ∧
    State.reset.inited = false := ⟨by decide, by decide, nofun, by decide⟩

theorem witness_BaudAndFormatSetters : ready.inited = true ∧ (0b11011#5 : FmtBits).extractLsb' 2 2 ≠ 1#2 ∧
    (0b10111#5 : FmtBits).extractLsb' 2 2 = 1#2 := by decide

/-- Every flag and cursor of `SingleWriterDiscipline` is written by its owner somewhere. -/
theorem witness_SingleWriterDiscipline :
    after (fun t => (t.headRx, t.fcPaused)) (exec .rxcEvent { flowReady with headRx := 4 }) = some (5, true) ∧
    after (fun t => (t.ovf, t.penderr)) (exec .rxcEvent (arrive (holding ready 3 0) 1#8 true false)) = some (true, 1#2) ∧
    after (fun t => (t.tailRx, t.ovf)) (exec .tryRecv { holding ready 3 0 with ovf := true }) = some (1, false) ∧
    after (fun t => (t.headTx, t.dreArmed)) (exec (.send 1#8) ready) = some (1, .armed) ∧
    after (·.tailTx) (exec .dreEvent (sending ready 2 0)) = some 1 ∧
    after (·.rxEn) (exec (.init 1#2 0#24) State.reset) = some true := by decide

theorem witness_AnswersStaySafeAcrossEvents : Instr.rxcEvent.isCommand = false ∧ Instr.dreEvent.isCommand = false ∧
    wrapped.CursorsInRange .rx ∧ wrapped.CursorsInRange .tx ∧ wrapped.isFull .tx = false ∧
    wrapped.isEmpty .rx = false :=
  ⟨by decide, by decide, ⟨by decide, by decide⟩, ⟨by decide, by decide⟩, by decide, by decide⟩

theorem witness_TransmitCompleteLevelIsInert : ∃ t u, step (present ready 0x72000000#32) = .next t ∧
    step { present ready 0x72000000#32 with txcLvl := 3#2 } = .next u := ⟨_, _, rfl, rfl⟩

theorem witness_ReceivedBytesAreNeverInterpreted :
    ∃ t u, step (arrive ready 1#8 false false) = .next t ∧ step (arrive ready 2#8 false false) = .next u :=
  ⟨_, _, rfl, rfl⟩

theorem witness_FlowControlPulses :
    after (fun t => (t.out.fcPause, t.fcTrace)) (step (arrive { flowReady with headRx := 4 } 1#8 false false)) =
      some (true, [.pause]) ∧
    after (fun t => t.out.fcResume)
      (step (present { flowReady with headRx := 7, tailRx := 4, fcPaused := true } 0x30000000#32)) = some true ∧
    ready.params.fcEn = false := by decide

/-- The state right after reset, idle. -/
theorem witness_ResetValuesAndOutputs : fresh.regs = (State.resetWith Params.default).regs ∧
    fresh.out = Outputs.reset ∧ fresh.sample.inp.rst = false ∧ fresh.sample.inp.cmd.valid = false := by decide

/-- A step that resets, one that writes nothing after one that wrote nothing, one after a write, one that writes. -/
theorem witness_TransmitDataPortHolds :
    ({ ready with inp := { ready.inp with rst := true } } : State).sample.inp.rst = true ∧
    ready.sample.inp.rst = false ∧ ready.out.riTxWr = false ∧ after (·.out.riTxWr) (step ready) = some false ∧
    after (·.out.riTxWr) (step (txReady (sending ready 2 0))) = some true ∧
    ((after id (step (txReady (sending ready 2 0)))).bind fun t => after (·.out.riTxWr) (step t)) = some false := by
  decide

theorem witness_ResetFromAnyState :
    ({ wrapped with inp := ⟨true, ⟨true, 0x30000000#32⟩, ⟨true, 1#8, true, true⟩, true⟩ } : State).sample.inp.rst =
      true := by decide

theorem witness_StepKeepsInvariant : wrapped.Inv ∧ flowPaused.Inv ∧ ∃ t, step (txReady wrapped) = .next t :=
  ⟨wrapped_inv, flowPaused_inv, _, rfl⟩

/-- A log with one byte sent and still queued. -/
def oneQueued : State :=
  { ready with
    txMem := [(0, 7#8)], headTx := 1, dreArmed := .armed
    log := [.rsp 0x20000007#32 0x1000#16, .push .tx 7#8, .grant .fg] }

theorem oneQueued_inv : oneQueued.Inv :=
  inv_of_checks (by decide) (by decide) (by decide) (by decide +kernel) (by decide) (by decide) (by decide)

theorem witness_WireCarriesTheSentBytes : oneQueued.Inv ∧
    oneQueued.sent.map some = oneQueued.wired.map some ++ oneQueued.queue .tx ∧ oneQueued.sent = [7#8] ∧
    ∃ t, step (txReady oneQueued) = .next t := ⟨oneQueued_inv, by decide, by decide, _, rfl⟩

theorem witness_BuffersAreFifo : oneQueued.Inv ∧ oneQueued.Fifo .rx ∧ oneQueued.Fifo .tx ∧ oneQueued.RxTraces ∧
    oneQueued.TxTraces ∧ ∃ t, step oneQueued = .next t := by
  refine ⟨oneQueued_inv, ?_, ?_, ?_, ?_, _, rfl⟩
  · unfold State.Fifo; decide
  · unfold State.Fifo; decide
  · unfold State.RxTraces; decide
  · unfold State.TxTraces; decide

theorem witness_FlowControlAlternates : flowPaused.Inv ∧ flowPaused.FcTraces ∧ flowPaused.params.fcEn = true ∧
    ∃ t, step flowPaused = .next t := by
  refine ⟨flowPaused_inv, ?_, by decide, _, rfl⟩
  unfold State.FcTraces; decide

/-- Three bytes into a buffer with room for exactly three; the result is V-TX-4's. -/
theorem witness_SendStringWithinFreeSpaceReturns : ready.inited = true ∧ ready.CursorsInRange .tx ∧ ready.script = [] ∧
    ready.rest = .still ∧ ready.inp.rst = false ∧ ready.inp.rx.req = false ∧ ready.inp.dreReq = false ∧
    [0x61#8, 0x62#8, 0x63#8].length ≤ ready.free .tx ∧
    (sendString 3 [0x61#8, 0x62#8, 0x63#8] ready).1 = .returned true :=
  ⟨by decide, ⟨by decide, by decide⟩, by decide, by decide, by decide, by decide, by decide, by decide, by decide⟩

/-- An environment that drives another command, a byte and a ready transmitter for ever. -/
def crowded (s : State) : State :=
  { s with rest := .loop ⟨some false, some ⟨true, 0x30000000#32⟩, some ⟨true, 1#8, false, false⟩, some true⟩ [] }

theorem witness_SendStringSpinsWhenUndrained :
    let s : State := { crowded (sending ready 3 0) with dreLvl := 0#2 }
    s.inited = true ∧ s.NeverResets ∧ s.isFull .tx = true ∧ s.dreLvl = 0#2 :=
  ⟨by decide, ⟨by decide, nofun, _, _, rfl, by decide, nofun⟩, by decide, by decide⟩

/-- R111, log 11: FG runs `SENDSTRING`, so the word another driver would put on the command port is dropped. -/
theorem test_sendString_owns_the_command_port :
    (sendString 1 [0x61#8] { ready with script := [⟨none, some ⟨true, 0x30000000#32⟩, none, none⟩] }).2.rspTrace =
      [(0x20000061#32, 0x1000#16)] := by decide

theorem witness_SendStringBeforeInitFails : fresh.inited = false ∧ fresh.sample.inp.rst = false := by decide

theorem witness_QuiescentWithinFourSteps :
    let s : State := present (txReady (arrive (sending ready 1 1) 1#8 false false)) 0x20000001#32
    s.script = [] ∧ s.rest = .still ∧ s.inp.rst = false ∧ after (·.quiescent) (settle 4 s) = some true := by decide

/-- A receiver never silent while a command waits, a transmitter never ready, and a step with no event pending. -/
theorem witness_ProgressNeedsPeriphPremises :
    (crowded ready).inited = true ∧ (crowded ready).rxcLvl ≠ 0#2 ∧ (crowded ready).script = [] ∧
    after (·.grantTrace) (runSteps 3 (crowded ready)) = some [.rxcEvent, .rxcEvent, .rxcEvent] ∧
    after (·.wireTrace) (runSteps 3 { sending ready 2 0 with rest := .loop ⟨some false, none, none, some false⟩ [] }) =
      some [] ∧
    (present ready 0x40000000#32).sample.inp.rst = false ∧ (present ready 0x40000000#32).sample.handlerPending = false ∧
    (present ready 0x40000000#32).sample.inp.cmd.valid = true := by decide

end Sys2Proof.Tests
end

/-!
SUPPORT. The statements of spec/00_scope.md: what a step runs (R10), that it never stops and comes to rest (R12), and
what it appends to the traces (R11).
-/

namespace Sys2Proof.Machine

/-! ## Without reset a step runs what the arbiter grants -/

theorem step_of_not_reset {s : State} (hr : s.sample.inp.rst = false) :
    step s = endOutcome s.sample s.sample.perform := by
  simp [step, hr]

theorem State.perform_of_rxcEvent {s : State} (hg : s.arbitrate = .rxcEvent) :
    s.perform = exec .rxcEvent (s.beginOp .rxcEvent) := by
  simp [State.perform, hg]

theorem State.perform_of_dreEvent {s : State} (hg : s.arbitrate = .dreEvent) :
    s.perform = exec .dreEvent (s.beginOp .dreEvent) := by
  simp [State.perform, hg]

theorem State.perform_of_idle {s : State} (hg : s.arbitrate = .idle) : s.perform = .next (s.beginOp .idle) := by
  simp [State.perform, hg]

theorem State.performCommand_of_decode {s : State} {i : Instr} (hd : decode s.inp.cmd.word = .ok i) :
    s.performCommand = exec i s := by
  simp [State.performCommand, hd]

theorem State.perform_of_fg {s : State} {i : Instr} (hg : s.arbitrate = .fg) (hd : decode s.inp.cmd.word = .ok i) :
    s.perform = exec i (s.beginOp .fg) := by
  simp [State.perform, hg, State.performCommand_of_decode (s := s.beginOp .fg) hd]

/-- An operation that leaves the driven configuration as it was ends without an entry of `RICFG`. -/
theorem State.endOp_of_riCfg_eq {a s : State} (h : s.riCfg = a.riCfg) : State.endOp a s = s := by
  simp [State.endOp, h]

/-- A step in which nothing is granted takes the grant and ends (R10). -/
theorem step_of_idle {s : State} (hr : s.sample.inp.rst = false) (hg : s.sample.arbitrate = .idle) :
    step s = .next (s.sample.beginOp .idle) := by
  have hcfg : (s.sample.beginOp .idle).riCfg = s.sample.riCfg := rfl
  rw [step_of_not_reset hr, State.perform_of_idle hg, endOutcome, State.endOp_of_riCfg_eq hcfg]

/-- Settles O10: FG's arm of the step, at a word that decodes. -/
theorem stepRunsTheDecodedCommand : Obligations.StepRunsTheDecodedCommand := by
  intro s i hr hg hd
  rw [step_of_not_reset hr, State.perform_of_fg hg hd]

/-- Settles O11: the events' arms of the step and the IDLE arm. -/
theorem stepRunsTheGrantedEvent : Obligations.StepRunsTheGrantedEvent := by
  intro s hr
  refine ⟨fun hg => ?_, fun hg => ?_, fun hg => ?_⟩
  · rw [step_of_not_reset hr, State.perform_of_rxcEvent hg]
  · rw [step_of_not_reset hr, State.perform_of_dreEvent hg]
  · exact ⟨_, step_of_idle hr hg, rfl, ⟨fun _ => rfl, fun _ => rfl, fun _ => rfl⟩, rfl, rfl⟩

/-! ## A step always answers a next state -/

theorem step_next (s : State) : ∃ t, step s = .next t := by
  cases hr : s.sample.inp.rst with
  | true => exact ⟨s.sample.hardReset, by simp [step, hr]⟩
  | false =>
    obtain ⟨u, hu⟩ := s.sample.perform_next
    exact ⟨State.endOp s.sample u, by rw [step_of_not_reset hr, hu, endOutcome]⟩

/-- Settles O19: a reset answers, and so does every operation. -/
theorem stepNeverStops : Obligations.StepNeverStops := step_next

/-! ## What an operation appends to the traces -/

/-- The entry of `RSP` that outputs show, in a step whose sampled command word is `w` (R11, R61). -/
def Outputs.rspEntries (w : CmdWord) (o : Outputs) : List (CmdWord × RspWord) := if o.rspValid then [(w, o.rsp)] else []

/-- The entry of `WIRE` that outputs show (R11, R35). -/
def Outputs.wireEntries (o : Outputs) : List Byte := if o.riTxWr then o.riTxData.toList else []

/-- The entries of `FC` that outputs show (R11, R104). -/
def Outputs.fcEntries (o : Outputs) : List FcEvent :=
  (if o.fcPause then [.pause] else []) ++ (if o.fcResume then [.resume] else [])

/-- The log `l` holds, beside the traces of the sampled state `x`, one entry of `GRANT` and the entries of `RSP`, `WIRE`
and `FC` that the outputs `o` show, and no entry of `RICFG` (R11). -/
structure Recorded (x : State) (o : Outputs) (l : List Obs) : Prop where
  grant : traceOf Obs.grant? l = x.grantTrace ++ [o.grant]
  rsp : traceOf Obs.rsp? l = x.rspTrace ++ o.rspEntries x.inp.cmd.word
  wire : traceOf Obs.wire? l = x.wireTrace ++ o.wireEntries
  fc : traceOf Obs.fc? l = x.fcTrace ++ o.fcEntries
  riCfg : traceOf Obs.riCfg? l = x.riCfgTrace

namespace Recorded

variable {x : State} {o o' : Outputs} {l : List Obs} {e : Obs}

/-- The grant is taken: nothing else is shown or recorded yet. -/
theorem begin (x : State) (g : Grant) : Recorded x (Outputs.begin g x.out) (.grant g :: x.log) :=
  ⟨traceOf_cons .., traceOf_cons .., traceOf_cons .., traceOf_cons .., (traceOf_cons ..).trans (List.append_nil _)⟩

/-- One more entry is recorded if the outputs show it. -/
theorem cons (h : Recorded x o l) (hg : [o.grant] ++ e.grant?.toList = [o'.grant])
    (hr : o.rspEntries x.inp.cmd.word ++ e.rsp?.toList = o'.rspEntries x.inp.cmd.word)
    (hw : o.wireEntries ++ e.wire?.toList = o'.wireEntries) (hf : o.fcEntries ++ e.fc?.toList = o'.fcEntries)
    (hc : e.riCfg? = none) : Recorded x o' (e :: l) where
  grant := by rw [traceOf_cons, h.grant, List.append_assoc, hg]
  rsp := by rw [traceOf_cons, h.rsp, List.append_assoc, hr]
  wire := by rw [traceOf_cons, h.wire, List.append_assoc, hw]
  fc := by rw [traceOf_cons, h.fc, List.append_assoc, hf]
  riCfg := by rw [traceOf_cons, h.riCfg, hc]; exact List.append_nil _

/-- The model's own entries are in none of the five traces (log 4). -/
theorem push (h : Recorded x o l) (b : Buf) (v : Byte) : Recorded x o (.push b v :: l) :=
  h.cons rfl (List.append_nil _) (List.append_nil _) (List.append_nil _) rfl

theorem pop (h : Recorded x o l) (b : Buf) (v : Byte) : Recorded x o (.pop b v :: l) :=
  h.cons rfl (List.append_nil _) (List.append_nil _) (List.append_nil _) rfl

/-- A read of the data register is in none of the five traces. -/
theorem read (h : Recorded x o l) : Recorded x { o with riRxRd := true } l :=
  ⟨h.grant, h.rsp, h.wire, h.fc, h.riCfg⟩

theorem write (h : Recorded x o l) (hw : o.riTxWr = false) (v : Byte) :
    Recorded x { o with riTxWr := true, riTxData := some v } (.wire v :: l) :=
  h.cons rfl (List.append_nil _) (by simp [Outputs.wireEntries, Obs.wire?, hw]) (List.append_nil _) rfl

theorem pause (h : Recorded x o l) (hp : o.fcPause = false) (hr : o.fcResume = false) :
    Recorded x { o with fcPause := true } (.fc .pause :: l) :=
  h.cons rfl (List.append_nil _) (List.append_nil _) (by simp [Outputs.fcEntries, Obs.fc?, hp, hr]) rfl

theorem resume (h : Recorded x o l) (hr : o.fcResume = false) :
    Recorded x { o with fcResume := true } (.fc .resume :: l) :=
  h.cons rfl (List.append_nil _) (List.append_nil _) (by simp [Outputs.fcEntries, Obs.fc?, hr]) rfl

theorem respond (h : Recorded x o l) (hv : o.rspValid = false) (r : Rsp) :
    Recorded x { o with cmdReady := true, rspValid := true, rsp := r.word } (.rsp x.inp.cmd.word r.word :: l) :=
  h.cons rfl (by simp [Outputs.rspEntries, Obs.rsp?, hv]) (List.append_nil _) (List.append_nil _) rfl

end Recorded

/-- Every instruction records what it drives: a response, after at most one push or pop and one flow-control event, or an
event's transaction on the Register Interface. -/
theorem Effect.recorded {x u : State} {g : Grant} {i : Instr} (h : Effect (x.beginOp g) i u) :
    Recorded x u.out u.log := by
  have hb := Recorded.begin x g
  cases h with
  | send v => exact (hb.push _ _).respond rfl _
  | recv => exact (hb.pop _ _).respond rfl _
  | recvResume => exact ((hb.pop _ _).resume rfl).respond rfl _
  | rxcFull => exact hb.read
  | rxc => exact hb.read.push _ _
  | rxcPause => exact (hb.read.push _ _).pause rfl rfl
  | dreEmpty => exact hb
  | dre => exact (hb.pop _ _).write rfl _
  | _ => exact hb.respond rfl _

theorem Performed.recorded {x u : State} (h : Performed x u) : Recorded x u.out u.log := by
  cases h with
  | rxcEvent _ h => exact (exec_effect h).recorded
  | dreEvent _ h => exact (exec_effect h).recorded
  | command _ _ _ h => exact (exec_effect h).recorded
  | illegal _ _ _ h => subst h; exact (Recorded.begin x .fg).respond rfl _
  | idle _ h => subst h; exact Recorded.begin x .idle

/-- The end of an operation adds no entry to a trace other than `RICFG` (log 8). -/
theorem traceOf_endOp {α : Type} {f : Obs → Option α} (hf : ∀ c, f (.riCfg c) = none) (a u : State) :
    traceOf f (State.endOp a u).log = traceOf f u.log := by
  obtain ⟨-, hl⟩ | ⟨-, hl⟩ := State.endOp_log a u <;> rw [hl]
  rw [traceOf_cons, hf]
  exact List.append_nil _

/-- `RICFG` gains the driven configuration if the operation changed it (log 8). -/
theorem riCfgTrace_endOp (a u : State) :
    (State.endOp a u).riCfgTrace = u.riCfgTrace ++ (if u.riCfg = a.riCfg then [] else [u.riCfg]) := by
  unfold State.riCfgTrace
  obtain ⟨hc, hl⟩ | ⟨hc, hl⟩ := State.endOp_log a u
  · simp [hl, hc]
  · simp [hl, hc, traceOf_cons, Obs.riCfg?]

@[simp] theorem State.riCfg_endOp (a u : State) : (State.endOp a u).riCfg = u.riCfg := by
  unfold State.endOp
  split <;> rfl

/-- The mark of a reset is in no trace (R170). -/
theorem traceOf_hardReset {α : Type} {f : Obs → Option α} (hf : f .reset = none) (s : State) :
    traceOf f s.hardReset.log = traceOf f s.log := by
  rw [State.hardReset_log, traceOf_cons, hf]
  exact List.append_nil _

/-- Settles O16: the operation records what the outputs show, and its end the changed configuration. -/
theorem tracesRecordTheOutputs : Obligations.TracesRecordTheOutputs := by
  intro s t h
  obtain ⟨hr, rfl⟩ | ⟨hr, u, hp, rfl⟩ := step_cases h
  · refine ⟨fun _ => ⟨?_, ?_, ?_, ?_, ?_⟩, fun hf => absurd hr (by simp [hf])⟩ <;> exact traceOf_hardReset rfl s.sample
  · refine ⟨fun ht => absurd hr (by simp [ht]), fun _ => ?_⟩
    obtain ⟨hgrant, hrsp, hwire, hfc, hcfg⟩ := hp.recorded
    rw [State.endOp_out, State.riCfg_endOp]
    refine ⟨?_, ?_, ?_, ?_, ?_⟩
    · exact (traceOf_endOp (fun _ => rfl) _ u).trans hgrant
    · exact (traceOf_endOp (fun _ => rfl) _ u).trans hrsp
    · exact (traceOf_endOp (fun _ => rfl) _ u).trans hwire
    · exact ((traceOf_endOp (fun _ => rfl) _ u).trans hfc).trans (List.append_assoc ..).symm
    · rw [riCfgTrace_endOp, State.riCfgTrace, hcfg]; rfl

/-! ## A still environment comes to rest -/

/-- The environment holds its inputs as they are, with no reset (log 2). -/
structure State.Still (s : State) : Prop where
  script : s.script = []
  rest : s.rest = .still
  rst : s.inp.rst = false

/-- A bound on the operations a still environment has left: one for a waiting byte, one for a presented command and, while
the transmitter is ready, one if the interrupt is armed, which ends in a write or a disarm, and one more for the command,
which may be a `SEND` that arms it again (R94, R106, R108). -/
def State.work (s : State) : Nat :=
  s.inp.rx.req.toNat + s.inp.cmd.valid.toNat +
    (if s.inp.dreReq then s.inp.cmd.valid.toNat + (if s.dreArmed = .armed then 1 else 0) else 0)

theorem State.work_le_four (s : State) : s.work ≤ 4 := by
  have h1 := s.inp.rx.req.toNat_le
  have h2 := s.inp.cmd.valid.toNat_le
  unfold State.work
  split_ifs <;> omega

@[simp] theorem State.work_endOp (a u : State) : (State.endOp a u).work = u.work := by simp [State.work]

/-! ### What an operation does to the environment and the inputs -/

/-- No instruction touches the environment (log 2). -/
theorem Effect.still {s u : State} {i : Instr} (h : Effect s i u) (hs : s.Still) : u.Still := by
  obtain ⟨hscript, hrest, hrst⟩ := hs
  cases h <;> exact ⟨hscript, hrest, hrst⟩

theorem Performed.still {x u : State} (h : Performed x u) (hs : x.Still) : u.Still := by
  have hb (g : Grant) : (x.beginOp g).Still := ⟨hs.script, hs.rest, hs.rst⟩
  cases h with
  | rxcEvent _ h => exact (exec_effect h).still (hb _)
  | dreEvent _ h => exact (exec_effect h).still (hb _)
  | command _ _ _ h => exact (exec_effect h).still (hb _)
  | illegal _ _ _ h => subst h; exact ⟨hs.script, hs.rest, hs.rst⟩
  | idle _ h => subst h; exact hb _

theorem State.still_endOp {a u : State} (h : u.Still) : (State.endOp a u).Still :=
  ⟨by simp [h.script], by simp [h.rest], by simp [h.rst]⟩

/-- A command is consumed and changes no other input (R60, log 3). -/
theorem Effect.inp_of_command {s u : State} {i : Instr} (h : Effect s i u) (hc : i.isCommand = true) :
    u.inp = consumedInputs s := by
  cases h with
  | rxcFull | rxc | rxcPause | dreEmpty | dre => cases hc
  | _ => rfl

/-- The receive event serves its request, whatever the buffer says, and leaves the other side alone (R94, R161). -/
theorem Effect.inp_of_rxcEvent {s u : State} (h : Effect s .rxcEvent u) :
    u.inp = { s.inp with rx := { s.inp.rx with req := false } } ∧ u.dreArmed = s.dreArmed := by
  cases h with
  | notInit _ hc => cases hc
  | rxcFull | rxc | rxcPause => exact ⟨rfl, rfl⟩

/-- The transmit event serves its request or, with no byte queued, disarms (R107, R108). -/
theorem Effect.inp_of_dreEvent {s u : State} (h : Effect s .dreEvent u) :
    (u.inp = { s.inp with dreReq := false } ∧ u.dreArmed = s.dreArmed) ∨ (u.inp = s.inp ∧ u.dreArmed = .disarmed) := by
  cases h with
  | notInit _ hc => cases hc
  | dreEmpty => exact .inr ⟨rfl, rfl⟩
  | dre => exact .inl ⟨rfl, rfl⟩

/-! ### What the arbiter's choice says of the state -/

/-- R149. -/
theorem State.rxcPending_iff (s : State) :
    s.rxcPending = true ↔ s.inited = true ∧ s.inp.rx.req = true ∧ s.rxcLvl ≠ 0#2 := by
  simp [State.rxcPending, and_assoc]

/-- R150. -/
theorem State.drePending_iff (s : State) :
    s.drePending = true ↔ s.inited = true ∧ s.inp.dreReq = true ∧ s.dreArmed = .armed ∧ s.dreLvl ≠ 0#2 := by
  simp [State.drePending, and_assoc]

/-- The pending condition of the event that is granted (R151). -/
theorem State.rxcPending_of_arbitrate {s : State} (hg : s.arbitrate = .rxcEvent) : s.rxcPending = true := by
  have h := s.arbitrate_cases
  simp only [hg, reduceCtorEq, false_and, or_false, true_and] at h
  exact h.1

theorem State.drePending_of_arbitrate {s : State} (hg : s.arbitrate = .dreEvent) : s.drePending = true := by
  have h := s.arbitrate_cases
  simp only [hg, reduceCtorEq, false_and, or_false, false_or, true_and] at h
  exact h.1

/-- FG is granted a presented command only (R151). -/
theorem State.cmd_valid_of_arbitrate {s : State} (hg : s.arbitrate = .fg) : s.inp.cmd.valid = true := by
  have h := s.arbitrate_cases
  simp only [hg, reduceCtorEq, false_and, or_false, false_or, true_and] at h
  obtain ⟨-, -, hv⟩ := h
  exact hv

/-- Nothing is granted only in a quiescent state (R12, R151). -/
theorem State.quiescent_of_arbitrate {s : State} (hg : s.arbitrate = .idle) : s.quiescent = true := by
  have h := s.arbitrate_cases
  simp only [hg, reduceCtorEq, false_and, false_or, true_and] at h
  simp [State.quiescent, State.handlerPending, h]

/-! ### Every operation leaves less work -/

/-- A command is served once, and can at most arm the interrupt. -/
theorem work_lt_of_consumed {s u : State} (hv : s.inp.cmd.valid = true) (hu : u.inp = consumedInputs s) :
    u.work < s.work := by
  simp only [State.work, hu, consumedInputs, hv, Bool.toNat_true, Bool.toNat_false]
  split_ifs <;> omega

theorem Effect.work_lt_of_rxcEvent {s u : State} (h : Effect s .rxcEvent u) (hp : s.rxcPending = true) :
    u.work < s.work := by
  obtain ⟨hinp, harm⟩ := h.inp_of_rxcEvent
  obtain ⟨-, hreq, -⟩ := s.rxcPending_iff.mp hp
  simp [State.work, hinp, harm, hreq]

theorem Effect.work_lt_of_dreEvent {s u : State} (h : Effect s .dreEvent u) (hp : s.drePending = true) :
    u.work < s.work := by
  obtain ⟨-, hreq, harm, -⟩ := s.drePending_iff.mp hp
  obtain ⟨hinp, -⟩ | ⟨hinp, hdis⟩ := h.inp_of_dreEvent
  · simp [State.work, hinp, hreq, harm]
  · simp [State.work, hinp, hreq, harm, hdis]

theorem guardMbz_isCommand {z : Bool} {i j : Instr} (h : guardMbz z i = .ok j) (hi : i.isCommand = true) :
    j.isCommand = true :=
  (guardMbz_ok h).2 ▸ hi

/-- A command word decodes to a command, never to a handler event (R57, R65). -/
theorem isCommand_of_decode {w : CmdWord} {i : Instr} (h : decode w = .ok i) : i.isCommand = true := by
  unfold decode decodeFields at h
  iterate 12
    obtain ⟨-, h⟩ | ⟨-, h⟩ := ite_eq_iff.mp h
    · exact guardMbz_isCommand h rfl
  obtain ⟨-, h⟩ | ⟨-, h⟩ := ite_eq_iff.mp h
  · obtain ⟨-, -, rfl⟩ := decodeSetFmt_ok h
    rfl
  · cases h

/-- Unless the state is quiescent, the step's operation leaves less work. -/
theorem Performed.work_lt {x u : State} (h : Performed x u) (hq : x.quiescent = false) : u.work < x.work := by
  cases h with
  | rxcEvent hg h => exact (exec_effect h).work_lt_of_rxcEvent (State.rxcPending_of_arbitrate hg)
  | dreEvent hg h => exact (exec_effect h).work_lt_of_dreEvent (State.drePending_of_arbitrate hg)
  | command _ hg hd h =>
    exact work_lt_of_consumed (State.cmd_valid_of_arbitrate hg)
      ((exec_effect h).inp_of_command (isCommand_of_decode hd))
  | illegal _ hg _ h => subst h; exact work_lt_of_consumed (State.cmd_valid_of_arbitrate hg) rfl
  | idle hg => simp [State.quiescent_of_arbitrate hg] at hq

/-! ### So steps lead to rest -/

/-- Unless the state is quiescent, a step in a still environment leaves less work, and the environment still. -/
theorem State.Still.step_work_lt {s : State} (hs : s.Still) (hq : s.quiescent = false) :
    ∃ t, step s = .next t ∧ t.Still ∧ t.work < s.work := by
  obtain ⟨t, ht⟩ := step_next s
  refine ⟨t, ht, ?_⟩
  have hx : s.sample = s := State.sample_of_still hs.script hs.rest
  obtain ⟨hr, -⟩ | ⟨-, u, hp, rfl⟩ := step_cases ht
  · rw [hx, hs.rst] at hr
    cases hr
  · rw [hx] at hp ⊢
    exact ⟨State.still_endOp (hp.still hs), by simpa using hp.work_lt hq⟩

/-- As many steps as there is work lead to a quiescent state. -/
theorem settle_quiescent {fuel : Nat} {s : State} (hs : s.Still) (hw : s.work ≤ fuel) :
    ∃ t, settle fuel s = .next t ∧ t.quiescent = true := by
  induction fuel generalizing s with
  | zero =>
    refine ⟨s, rfl, ?_⟩
    by_contra hq
    obtain ⟨t, -, -, hlt⟩ := hs.step_work_lt (by simpa using hq)
    omega
  | succ fuel ih =>
    cases hq : s.quiescent with
    | true => exact ⟨s, by simp [settle, hq], hq⟩
    | false =>
      obtain ⟨t, hst, ht, hlt⟩ := hs.step_work_lt hq
      obtain ⟨v, hv, hvq⟩ := ih ht (by omega)
      exact ⟨v, by simpa [settle, hq, hst] using hv, hvq⟩

/-- Settles O58: there are at most four operations of work (R12, R94, R108). -/
theorem quiescentWithinFourSteps : Obligations.QuiescentWithinFourSteps := fun s hscript hrest hrst =>
  settle_quiescent ⟨hscript, hrest, hrst⟩ s.work_le_four

end Sys2Proof.Machine

/-!
SUPPORT. The statements of spec/10_state.md: the invariant of R14, R30 and R39, which holds at reset and is kept by
every step; how long the two requests stay (R36, R37); what sets and clears `INITED` (R23).
-/

namespace Sys2Proof.Machine

/-! ## A storage space and the run of slots that must be written -/

/-- A storage space of `n` slots in canonical form (R40, R43) in which the `k` slots from `i` on are written (R54). -/
structure Memory.Holds {w : Nat} (n k i : Nat) (m : Memory w) : Prop where
  wf : m.wf = true
  inBounds : m.inBounds n = true
  written : ∀ x ∈ slotsFrom n m k i, x ≠ none

namespace Memory.Holds

variable {w n k i : Nat} {m : Memory w}

/-- Of an empty run nothing is asked. -/
theorem of_zero (hw : m.wf = true) (hb : m.inBounds n = true) (i : Nat) : m.Holds n 0 i :=
  ⟨hw, hb, nofun⟩

/-- A write to the slot at the far end makes the run one longer. -/
theorem store (h : m.Holds n k i) (hi : i < n) (hk : k < n) (v : BitVec w) :
    (m.write ((i + k) % n) v).Holds n (k + 1) i where
  wf := Memory.wf_write _ _ h.wf
  inBounds := Memory.inBounds_write _ (Nat.mod_lt _ (by omega)) h.inBounds
  written := by
    rw [slotsFrom_store _ _ _ _ _ hi hk]
    simpa [or_imp, forall_and] using h.written

/-- Without its oldest slot the run is one shorter. -/
theorem take (h : m.Holds n (k + 1) i) : m.Holds n k ((i + 1) % n) where
  wf := h.wf
  inBounds := h.inBounds
  written x hx := h.written x (by rw [slotsFrom_succ]; exact List.mem_cons_of_mem _ hx)

end Memory.Holds

/-! ## A push and a pop, by what they do to the cursors and the byte space -/

/-- `t` is `s` with the byte `v` pushed to `b`, whatever else differs (R79). -/
structure PushedTo (b : Buf) (v : Byte) (s t : State) : Prop where
  notFull : s.isFull b = false
  slots : t.slots b = s.slots b
  tail : t.tail b = s.tail b
  head : t.head b = (s.head b + 1) % s.slots b
  mem : t.mem b = (s.mem b).write (s.head b) v

/-- `t` is `s` with the oldest byte of `b` popped, whatever else differs (R80). -/
structure PoppedFrom (b : Buf) (s t : State) : Prop where
  notEmpty : s.isEmpty b = false
  slots : t.slots b = s.slots b
  head : t.head b = s.head b
  tail : t.tail b = (s.tail b + 1) % s.slots b
  mem : t.mem b = s.mem b

section
variable {w : Nat} {b : Buf} {v : Byte} {s t : State} {m : Memory w}

theorem PushedTo.cursors (h : PushedTo b v s t) (hc : s.CursorsInRange b) : t.CursorsInRange b :=
  (State.queue_push hc h.notFull h.slots h.tail h.head h.mem).1

theorem PushedTo.count (h : PushedTo b v s t) (hc : s.CursorsInRange b) : t.count b = s.count b + 1 :=
  (State.queue_push hc h.notFull h.slots h.tail h.head h.mem).2.1

theorem PoppedFrom.cursors (h : PoppedFrom b s t) (hc : s.CursorsInRange b) : t.CursorsInRange b :=
  (State.queue_pop hc h.notEmpty h.slots h.head h.tail h.mem).1

theorem PoppedFrom.count (h : PoppedFrom b s t) (hc : s.CursorsInRange b) : t.count b + 1 = s.count b :=
  (State.queue_pop hc h.notEmpty h.slots h.head h.tail h.mem).2.1

/-- A push takes one byte of free space (R78). -/
theorem PushedTo.free (h : PushedTo b v s t) (hc : s.CursorsInRange b) : t.free b + 1 = s.free b := by
  have hcount := h.count hc
  have hlt := t.count_lt b
  rw [h.slots] at hlt
  unfold State.free
  rw [h.slots]
  omega

/-- A pop gives one byte of free space back (R78). -/
theorem PoppedFrom.free (h : PoppedFrom b s t) (hc : s.CursorsInRange b) : t.free b = s.free b + 1 := by
  have hcount := h.count hc
  have hlt := s.count_lt b
  unfold State.free
  rw [h.slots]
  omega

/-- A space in which the slot under the head is written at the push, the bytes' or the tags', holds the longer queue. -/
theorem PushedTo.holds (h : PushedTo b v s t) (hc : s.CursorsInRange b)
    (hm : m.Holds (s.slots b) (s.count b) (s.tail b)) (x : BitVec w) :
    (m.write (s.head b) x).Holds (t.slots b) (t.count b) (t.tail b) := by
  rw [h.slots, h.count hc, h.tail, ← State.head_of_count hc]
  exact hm.store hc.2 (s.count_lt b) x

/-- A space that a pop leaves alone holds the shorter queue. -/
theorem PoppedFrom.holds (h : PoppedFrom b s t) (hc : s.CursorsInRange b)
    (hm : m.Holds (s.slots b) (s.count b) (s.tail b)) : m.Holds (t.slots b) (t.count b) (t.tail b) := by
  rw [← h.count hc] at hm
  rw [h.slots, h.tail]
  exact hm.take

/-- Cursors that are both 0 are in range. -/
theorem State.cursorsInRange_of_zero (hh : s.head b = 0) (ht : s.tail b = 0) : s.CursorsInRange b := by
  have := s.two_le_slots b
  unfold State.CursorsInRange
  omega

/-- Between equal cursors nothing is queued (R75). -/
theorem State.count_of_eq (h : s.head b = s.tail b) : s.count b = 0 := by
  simp [State.count, h, wrap]

/-- Between equal cursors every usable slot is free (R78). -/
theorem State.free_of_eq (h : s.head b = s.tail b) : s.free b = s.slots b - 1 := by
  simp [State.free, State.count_of_eq h]

/-- A canonical space holds the queue between equal cursors. -/
theorem State.holds_of_eq (h : s.head b = s.tail b) (hw : m.wf = true) (hb : m.inBounds (s.slots b) = true) :
    m.Holds (s.slots b) (s.count b) (s.tail b) := by
  rw [State.count_of_eq h]
  exact .of_zero hw hb _

end

/-! ## The invariant in four parts, by who writes what they speak of -/

/-- The receive buffer, its two spaces and `OVF` (R43, R54, R93). -/
structure State.RxInv (s : State) : Prop where
  cursors : s.CursorsInRange .rx
  bytes : s.rxMem.Holds (s.slots .rx) (s.count .rx) (s.tail .rx)
  tags : s.rxTag.Holds (s.slots .rx) (s.count .rx) (s.tail .rx)
  ovfFull : s.ovf = true → s.isFull .rx = true

/-- The transmit buffer, its space and `DRE_ARMED` (R43, R54, R113). -/
structure State.TxInv (s : State) : Prop where
  cursors : s.CursorsInRange .tx
  bytes : s.txMem.Holds (s.slots .tx) (s.count .tx) (s.tail .tx)
  disarmedEmpty : s.dreArmed = .disarmed → s.isEmpty .tx = true

/-- The free receive space is on the side of the marks that `FC_PAUSED` says (R22, R102). -/
structure State.WithinMarks (s : State) : Prop where
  running : s.params.fcEn = true → s.fcPaused = false → s.params.lowWm < s.free .rx
  paused : s.params.fcEn = true → s.fcPaused = true → s.free .rx < s.params.highWm
  absent : s.params.fcEn = false → s.fcPaused = false

/-- The configuration registers (R30, R31, R171). -/
structure State.ConfigInv (s : State) : Prop where
  fmt : fmtLegal s.fmt = true
  idle : s.inited = false → s.Idle
  enabled : s.inited = true → s.rxEn = true ∧ s.txEn = true

theorem State.inv_iff {s : State} : s.Inv ↔ s.RxInv ∧ s.TxInv ∧ s.WithinMarks ∧ s.ConfigInv where
  mp h :=
    ⟨⟨h.rxCursors, ⟨h.rxMemWf.1, h.rxMemWf.2, h.rxWritten⟩, ⟨h.rxTagWf.1, h.rxTagWf.2, h.tagWritten⟩, h.ovfFull⟩,
      ⟨h.txCursors, ⟨h.txMemWf.1, h.txMemWf.2, h.txWritten⟩, h.disarmedEmpty⟩,
      ⟨h.runningAboveLow, h.pausedBelowHigh, h.fcAbsent⟩, h.fmtLegal, h.idleBeforeInit, h.enabledAfterInit⟩
  mpr := fun ⟨hrx, htx, hm, hcfg⟩ =>
    { rxCursors := hrx.cursors, rxMemWf := ⟨hrx.bytes.wf, hrx.bytes.inBounds⟩, rxWritten := hrx.bytes.written
      rxTagWf := ⟨hrx.tags.wf, hrx.tags.inBounds⟩, tagWritten := hrx.tags.written, ovfFull := hrx.ovfFull
      txCursors := htx.cursors, txMemWf := ⟨htx.bytes.wf, htx.bytes.inBounds⟩, txWritten := htx.bytes.written
      disarmedEmpty := htx.disarmedEmpty
      runningAboveLow := hm.running, pausedBelowHigh := hm.paused, fcAbsent := hm.absent
      fmtLegal := hcfg.fmt, idleBeforeInit := hcfg.idle, enabledAfterInit := hcfg.enabled }

/-- The invariant speaks of the registers and the slots only, not of the ports, the environment or the log. -/
theorem State.Inv.congr {s t : State} (h : s.Inv) (hr : t.regs = s.regs) (hb : t.rxMem = s.rxMem)
    (hg : t.rxTag = s.rxTag) (hx : t.txMem = s.txMem) : t.Inv := by
  have ht : t = { s with
      inp := t.inp, script := t.script, rest := t.rest, out := t.out, log := t.log, draws := t.draws } := by
    cases s; cases t
    simp_all [State.regs]
  rw [ht]
  exact ⟨h.rxCursors, h.txCursors, h.rxMemWf, h.rxTagWf, h.txMemWf, h.rxWritten, h.tagWritten, h.txWritten, h.ovfFull,
    h.disarmedEmpty, h.runningAboveLow, h.pausedBelowHigh, h.fcAbsent, h.fmtLegal, h.idleBeforeInit, h.enabledAfterInit⟩

/-! ## The parts hold where the cursors are 0, as at reset and after `INIT` -/

theorem State.RxInv.of_zero {s : State} (hh : s.headRx = 0) (ht : s.tailRx = 0)
    (hb : s.rxMem.wf = true ∧ s.rxMem.inBounds s.params.nRx = true)
    (hg : s.rxTag.wf = true ∧ s.rxTag.inBounds s.params.nRx = true) (ho : s.ovf = false) : s.RxInv := by
  have he : s.head .rx = s.tail .rx := hh.trans ht.symm
  exact ⟨State.cursorsInRange_of_zero hh ht, State.holds_of_eq he hb.1 hb.2, State.holds_of_eq he hg.1 hg.2,
    fun h => by simp [ho] at h⟩

theorem State.TxInv.of_zero {s : State} (hh : s.headTx = 0) (ht : s.tailTx = 0)
    (hb : s.txMem.wf = true ∧ s.txMem.inBounds s.params.nTx = true) : s.TxInv := by
  have he : s.head .tx = s.tail .tx := hh.trans ht.symm
  exact ⟨State.cursorsInRange_of_zero hh ht, State.holds_of_eq he hb.1 hb.2, fun _ => State.isEmpty_true.mpr he⟩

/-- An empty buffer is above the low mark, since the marks are below N - 1 (R6, R102). -/
theorem State.WithinMarks.of_eq {s : State} (he : s.headRx = s.tailRx) (hp : s.fcPaused = false) : s.WithinMarks where
  running hn _ := by
    obtain ⟨-, -, -, hmarks⟩ := legal_parts s.params
    obtain ⟨hlow, hhigh⟩ := hmarks hn
    rw [State.free_of_eq (b := .rx) he, State.slots_rx]
    omega
  paused _ h := by simp [hp] at h
  absent _ := hp

/-- The reset values with no slot written have the invariant. -/
theorem State.Idle.inv {s : State} (hi : s.Idle) (hb : s.rxMem = []) (hg : s.rxTag = []) (hx : s.txMem = []) :
    s.Inv := by
  have hheadRx : s.headRx = 0 := congrArg Regs.headRx hi
  have htailRx : s.tailRx = 0 := congrArg Regs.tailRx hi
  have hinited : s.inited = false := congrArg Regs.inited hi
  have hfmt : s.fmt = fmt8N1 := congrArg Regs.fmt hi
  refine State.inv_iff.mpr ⟨?_, ?_, ?_, ?_⟩
  · exact .of_zero hheadRx htailRx (by simp [hb]) (by simp [hg]) (congrArg Regs.ovf hi)
  · exact .of_zero (congrArg Regs.headTx hi) (congrArg Regs.tailTx hi) (by simp [hx])
  · exact .of_eq (hheadRx.trans htailRx.symm) (congrArg Regs.fcPaused hi)
  · exact ⟨by rw [hfmt]; decide, fun _ => hi, fun h => by simp [hinited] at h⟩

/-- Settles O50: the reset values are idle, the buffers empty and the log holds nothing. -/
theorem invariantsAtReset : Obligations.InvariantsAtReset := fun p =>
  have hinv : (State.resetWith p).Inv := State.Idle.inv rfl rfl rfl rfl
  have hfifo (b : Buf) (h : (State.resetWith p).head b = (State.resetWith p).tail b) : (State.resetWith p).Fifo b := by
    rw [State.Fifo, State.queue_nil h]
    rfl
  ⟨hinv, hfifo .rx rfl, hfifo .tx rfl, ⟨rfl, rfl⟩, rfl, rfl⟩

/-! ## Every instruction keeps the four parts -/

/-- Only `INIT`, `TRYRECV` and the receive event touch the receive buffer (R161). -/
theorem Effect.rxInv {s u : State} {i : Instr} (h : Effect s i u) (hs : s.RxInv) : u.RxInv := by
  cases h with
  | init =>
    exact .of_zero rfl rfl ⟨hs.bytes.wf, hs.bytes.inBounds⟩ ⟨hs.tags.wf, hs.tags.inBounds⟩ rfl
  | recvEmpty => exact ⟨hs.cursors, hs.bytes, hs.tags, nofun⟩
  | recv _ he | recvResume _ he =>
    have hp : PoppedFrom .rx s s.popped1 := ⟨he, rfl, rfl, rfl, rfl⟩
    exact ⟨hp.cursors hs.cursors, hp.holds hs.cursors hs.bytes, hp.holds hs.cursors hs.tags, nofun⟩
  | rxcFull hf => exact ⟨hs.cursors, hs.bytes, hs.tags, fun _ => hf⟩
  | rxc hf | rxcPause hf =>
    have hp : PushedTo .rx s.inp.rx.data s s.stored1 := ⟨hf, rfl, rfl, rfl, rfl⟩
    exact ⟨hp.cursors hs.cursors, hp.holds hs.cursors hs.bytes _, hp.holds hs.cursors hs.tags _,
      fun ho => absurd (hs.ovfFull ho) (by simp [hf])⟩
  | _ => exact ⟨hs.cursors, hs.bytes, hs.tags, hs.ovfFull⟩

/-- Only `INIT`, `SEND` and the transmit event touch the transmit buffer (R161). -/
theorem Effect.txInv {s u : State} {i : Instr} (h : Effect s i u) (hs : s.TxInv) : u.TxInv := by
  cases h with
  | init => exact .of_zero rfl rfl ⟨hs.bytes.wf, hs.bytes.inBounds⟩
  | send v _ hf =>
    have hp : PushedTo .tx v s (s.sent1 v) := ⟨hf, rfl, rfl, rfl, rfl⟩
    exact ⟨hp.cursors hs.cursors, hp.holds hs.cursors hs.bytes _, nofun⟩
  | dreEmpty he => exact ⟨hs.cursors, hs.bytes, fun _ => he⟩
  | dre he =>
    have hp : PoppedFrom .tx s s.wired1 := ⟨he, rfl, rfl, rfl, rfl⟩
    exact ⟨hp.cursors hs.cursors, hp.holds hs.cursors hs.bytes, fun hd => absurd (hs.disarmedEmpty hd) (by simp [he])⟩
  | _ => exact ⟨hs.cursors, hs.bytes, hs.disarmedEmpty⟩

/-- A push lowers and a pop raises the free space by one, and the mark it comes to is the one that is tested (R100 to
R102). -/
theorem Effect.withinMarks {s u : State} {i : Instr} (h : Effect s i u) (hc : s.CursorsInRange .rx)
    (hs : s.WithinMarks) : u.WithinMarks := by
  obtain ⟨-, -, -, hmarks⟩ := legal_parts s.params
  cases h with
  | init => exact .of_eq rfl rfl
  | recv _ he hq =>
    have hfree : s.popped1.free .rx = s.free .rx + 1 := PoppedFrom.free ⟨he, rfl, rfl, rfl, rfl⟩ hc
    have hlow (hn : s.params.fcEn = true) (hp : s.fcPaused = false) : s.params.lowWm < s.popped1.free .rx := by
      have := hs.running hn hp
      omega
    have hhigh (hn : s.params.fcEn = true) (hp : s.fcPaused = true) : s.popped1.free .rx < s.params.highWm := by
      simpa [hn, hp] using hq
    exact ⟨hlow, hhigh, hs.absent⟩
  | recvResume _ _ hn _ hq =>
    exact ⟨fun _ _ => (hmarks hn).1.trans_le hq, nofun, fun _ => rfl⟩
  | rxc hf hq =>
    have hfree : s.stored1.free .rx + 1 = s.free .rx :=
      PushedTo.free (v := s.inp.rx.data) ⟨hf, rfl, rfl, rfl, rfl⟩ hc
    have hlow (hn : s.params.fcEn = true) (hp : s.fcPaused = false) : s.params.lowWm < s.stored1.free .rx := by
      simpa [hn, hp] using hq
    have hhigh (hn : s.params.fcEn = true) (hp : s.fcPaused = true) : s.stored1.free .rx < s.params.highWm := by
      have := hs.paused hn hp
      omega
    exact ⟨hlow, hhigh, hs.absent⟩
  | rxcPause _ hn _ hq =>
    exact ⟨nofun, fun _ _ => hq.trans_lt (hmarks hn).1, fun ha => nomatch hn.symm.trans ha⟩
  | _ => exact ⟨hs.running, hs.paused, hs.absent⟩

/-- An instruction that does not leave the block initialised is refused: it leaves the registers as they are. -/
theorem Effect.inited_or_regs {s u : State} {i : Instr} (h : Effect s i u)
    (hi : i.isCommand = false → s.inited = true) : u.inited = true ∨ u.regs = s.regs := by
  cases h with
  | notInit | badFormat => exact .inr rfl
  | init => exact .inl rfl
  | rxcFull | rxc | rxcPause | dreEmpty | dre => exact .inl (hi rfl)
  | _ => exact .inl ‹s.inited = true›

theorem State.Idle.congr {s t : State} (h : s.Idle) (hr : t.regs = s.regs) : t.Idle := by
  have hp : t.params = s.params := congrArg Regs.params hr
  rw [State.Idle, hr, hp]
  exact h

theorem Effect.configInv {s u : State} {i : Instr} (h : Effect s i u) (hi : i.isCommand = false → s.inited = true)
    (hs : s.ConfigInv) : u.ConfigInv := by
  refine ⟨?_, fun hu => ?_, ?_⟩
  · cases h with
    | init => exact (by decide : fmtLegal fmt8N1 = true)
    | setFmt _ hf => exact hf
    | _ => exact hs.fmt
  · obtain ht | hr := h.inited_or_regs hi
    · simp [ht] at hu
    · exact (hs.idle ((congrArg Regs.inited hr).symm.trans hu)).congr hr
  · cases h with
    | init => exact fun _ => ⟨rfl, rfl⟩
    | _ => exact hs.enabled

/-! ## So every step keeps the invariant -/

/-- A handler event is performed in an initialised block only, the reason for the premise (R123, R149, R150). -/
theorem Effect.inv {s u : State} {i : Instr} (h : Effect s i u) (hi : i.isCommand = false → s.inited = true)
    (hs : s.Inv) : u.Inv := by
  obtain ⟨hrx, htx, hm, hcfg⟩ := State.inv_iff.mp hs
  exact State.inv_iff.mpr ⟨h.rxInv hrx, h.txInv htx, h.withinMarks hrx.cursors hm, h.configInv hi hcfg⟩

theorem State.Inv.beginOp {s : State} (h : s.Inv) (g : Grant) : (s.beginOp g).Inv := h.congr rfl rfl rfl rfl

theorem Performed.inv {x u : State} (h : Performed x u) (hx : x.Inv) : u.Inv := by
  cases h with
  | rxcEvent hg h =>
    obtain ⟨hi, -⟩ := x.rxcPending_iff.mp (State.rxcPending_of_arbitrate hg)
    exact (exec_effect h).inv (fun _ => hi) (hx.beginOp _)
  | dreEvent hg h =>
    obtain ⟨hi, -⟩ := x.drePending_iff.mp (State.drePending_of_arbitrate hg)
    exact (exec_effect h).inv (fun _ => hi) (hx.beginOp _)
  | command i _ hd h =>
    exact (exec_effect h).inv (fun hc => by simp [isCommand_of_decode hd] at hc) (hx.beginOp _)
  | illegal _ _ _ h => subst h; exact hx.congr rfl rfl rfl rfl
  | idle _ h => subst h; exact hx.beginOp _

@[simp] theorem State.regs_endOp (a u : State) : (State.endOp a u).regs = u.regs := by
  unfold State.endOp
  split <;> rfl

/-- Settles O51: a reset leads to the reset values, and each of the step's operations keeps the four parts. -/
theorem stepKeepsInvariant : Obligations.StepKeepsInvariant := by
  intro s t hs h
  obtain ⟨-, rfl⟩ | ⟨-, u, hp, rfl⟩ := step_cases h
  · exact State.Idle.inv rfl rfl rfl rfl
  · have hx : s.sample.Inv := hs.congr rfl rfl rfl rfl
    exact (hp.inv hx).congr (by simp) (by simp) (by simp) (by simp)

/-! ## The requests stay until they are served -/

/-- From `x` to `u` each request is lowered exactly by the transaction that serves it: `ri_rxc_req` by a read of the
data register, `ri_dre_req` by a write (R36, R37, log 3). -/
structure RequestsServed (x u : State) : Prop where
  rxc : u.inp.rx.req = (x.inp.rx.req && !u.out.riRxRd)
  dre : u.inp.dreReq = (x.inp.dreReq && !u.out.riTxWr)

theorem Effect.requestsServed {x u : State} {g : Grant} {i : Instr} (h : Effect (x.beginOp g) i u) :
    RequestsServed x u := by
  cases h with
  | rxcFull | rxc | rxcPause => exact ⟨(Bool.and_false _).symm, (Bool.and_true _).symm⟩
  | dre => exact ⟨(Bool.and_true _).symm, (Bool.and_false _).symm⟩
  | _ => exact ⟨(Bool.and_true _).symm, (Bool.and_true _).symm⟩

theorem Performed.requestsServed {x u : State} (h : Performed x u) : RequestsServed x u := by
  cases h with
  | rxcEvent _ h | dreEvent _ h | command _ _ _ h => exact (exec_effect h).requestsServed
  | illegal _ _ _ h | idle _ h => subst h; exact ⟨(Bool.and_true _).symm, (Bool.and_true _).symm⟩

/-- A reset performs no transaction and leaves the inputs as they are driven (R170, log 9). -/
theorem step_requestsServed {s t : State} (h : step s = .next t) : RequestsServed s.sample t := by
  obtain ⟨-, rfl⟩ | ⟨-, u, hp, rfl⟩ := step_cases h
  · exact ⟨(Bool.and_true _).symm, (Bool.and_true _).symm⟩
  · obtain ⟨hrxc, hdre⟩ := hp.requestsServed
    exact ⟨by simpa using hrxc, by simpa using hdre⟩

/-- P1 for the frame before a step: PERIPH keeps a raised request raised (R36). -/
theorem State.sample_rxReq {s : State} (hk : s.nextFrame.keepsRequest s.inp) (hr : s.inp.rx.req = true) :
    s.sample.inp.rx.req = true := by
  rw [State.sample_inp]
  cases hf : s.nextFrame.rx with
  | none => simpa [Frame.apply, hf] using hr
  | some p => simpa [Frame.apply, hf] using hk hr p hf

/-- Settles O15: the step lowers a request exactly when it serves it, and PERIPH keeps the one it raised. -/
theorem requestsStayUntilServed : Obligations.RequestsStayUntilServed := by
  intro s t h
  obtain ⟨hrxc, hdre⟩ := step_requestsServed h
  refine ⟨fun hrd => ?_, fun hk hr hrd => ?_, fun hwr => ?_, fun hwr => ?_⟩
  · simp [hrxc, hrd]
  · simp [hrxc, hrd, State.sample_rxReq hk hr]
  · simp [hdre, hwr]
  · simp [hdre, hwr]

/-! ## What sets and clears `INITED` -/

/-- `INITED` changes by `INIT` only, which sets it. -/
theorem Effect.inited {s u : State} {i : Instr} (h : Effect s i u) :
    u.inited = s.inited ∨ (u.inited = true ∧ ∃ l b, i = .init l b) := by
  cases h with
  | init l b => exact .inr ⟨rfl, l, b, rfl⟩
  | _ => exact .inl rfl

theorem Performed.inited {x u : State} (h : Performed x u) :
    u.inited = x.inited ∨
      (u.inited = true ∧ x.arbitrate = .fg ∧ ∃ l b, decode x.inp.cmd.word = .ok (.init l b)) := by
  cases h with
  | rxcEvent _ h | dreEvent _ h =>
    exact .inl ((exec_effect h).inited.resolve_right fun ⟨_, _, _, hi⟩ => nomatch hi)
  | command i hg hd h =>
    obtain he | ⟨hu, l, b, rfl⟩ := (exec_effect h).inited
    · exact .inl he
    · exact .inr ⟨hu, hg, l, b, hd⟩
  | illegal _ _ _ h | idle _ h => subst h; exact .inl rfl

/-- An operation leaves the grant of its step on the port (R66). -/
theorem Effect.grant {s u : State} {i : Instr} (h : Effect s i u) : u.out.grant = s.out.grant := by
  cases h <;> rfl

theorem Performed.grant {x u : State} (h : Performed x u) : u.out.grant = x.arbitrate := by
  cases h with
  | rxcEvent hg h | dreEvent hg h | command _ hg _ h => exact (exec_effect h).grant.trans hg.symm
  | illegal _ hg _ h | idle hg h => subst h; exact hg.symm

/-- Settles O20: a reset clears `INITED`, and of the operations only `INIT` changes it. -/
theorem onlyInitSetsAndOnlyResetClearsInited : Obligations.OnlyInitSetsAndOnlyResetClearsInited := by
  intro s t h
  obtain ⟨hr, rfl⟩ | ⟨hr, u, hp, rfl⟩ := step_cases h
  · exact ⟨fun _ => nofun, fun _ _ => hr, fun _ => rfl⟩
  · have hnr (ht : s.sample.inp.rst = true) : u.inited = false := nomatch hr.symm.trans ht
    rw [State.endOp_inited, State.endOp_out, hp.grant]
    obtain he | ⟨hu, hg, hd⟩ := hp.inited
    · rw [State.sample_inited] at he
      exact ⟨fun hf ht => absurd ht (by simp [he, hf]), fun ht hf => absurd ht (by simp [← he, hf]), hnr⟩
    · exact ⟨fun _ _ => ⟨hg, hd⟩, fun _ hf => absurd hu (by simp [hf]), hnr⟩

end Sys2Proof.Machine

/-!
SUPPORT. The statements of spec/20_memory.md: which operations access the data register (R45), and that a received byte
is data only (R53).
-/

namespace Sys2Proof.Machine

/-! ## Who accesses the data register -/

section
variable {x u : State} {g : Grant} {i : Instr}

/-- The receive event reads the data register, whatever its outcome, and no other instruction does (R91, R94). -/
theorem Effect.riRxRd_iff (h : Effect (x.beginOp g) i u) : u.out.riRxRd = true ↔ i = .rxcEvent := by
  cases h with
  | notInit _ hc => exact iff_of_false nofun fun hi => nomatch hi ▸ hc
  | rxcFull | rxc | rxcPause => exact iff_of_true rfl rfl
  | _ => exact iff_of_false nofun nofun

/-- The transmit event writes the data register if it finds a byte queued; no other instruction does (R107, R108). -/
theorem Effect.riTxWr_iff (h : Effect (x.beginOp g) i u) :
    u.out.riTxWr = true ↔ i = .dreEvent ∧ x.headTx ≠ x.tailTx := by
  cases h with
  | notInit _ hc => exact iff_of_false nofun fun ⟨hi, _⟩ => nomatch hi ▸ hc
  | dreEmpty he => exact iff_of_false nofun fun ⟨_, hne⟩ => hne (State.isEmpty_true.mp he)
  | dre he => exact iff_of_true rfl ⟨rfl, State.isEmpty_false.mp he⟩
  | _ => exact iff_of_false nofun nofun

/-- What is written is the byte under `tail[TX]` (R107). -/
theorem Effect.riTxData_of_write (h : Effect (x.beginOp g) i u) (hw : u.out.riTxWr = true) :
    ∃ d, u.out.riTxData = some d ∧ ∀ v, x.txMem.read x.tailTx = some v → d = v := by
  cases h with
  | dre => exact ⟨_, rfl, fun _ hv => State.memRead_of_read (b := .tx) hv⟩
  | _ => cases hw

theorem ne_event_of_decode {w : CmdWord} (h : decode w = .ok i) : i ≠ .rxcEvent ∧ i ≠ .dreEvent :=
  ⟨fun hi => (nomatch hi ▸ isCommand_of_decode h), fun hi => (nomatch hi ▸ isCommand_of_decode h)⟩

theorem Performed.riRxRd_iff (h : Performed x u) : u.out.riRxRd = true ↔ x.arbitrate = .rxcEvent := by
  cases h with
  | rxcEvent hg h | dreEvent hg h => simp [(exec_effect h).riRxRd_iff, hg]
  | command i hg hd h =>
    obtain ⟨hi, -⟩ := ne_event_of_decode hd
    simp [(exec_effect h).riRxRd_iff, hg, hi]
  | illegal _ hg _ h | idle hg h => subst h; exact iff_of_false nofun (by simp [hg])

theorem Performed.riTxWr_iff (h : Performed x u) :
    u.out.riTxWr = true ↔ x.arbitrate = .dreEvent ∧ x.headTx ≠ x.tailTx := by
  cases h with
  | rxcEvent hg h | dreEvent hg h => simp [(exec_effect h).riTxWr_iff, hg]
  | command i hg hd h =>
    obtain ⟨-, hi⟩ := ne_event_of_decode hd
    simp [(exec_effect h).riTxWr_iff, hg, hi]
  | illegal _ hg _ h | idle hg h => subst h; exact iff_of_false nofun (by simp [hg])

theorem Performed.riTxData_of_write (h : Performed x u) (hw : u.out.riTxWr = true) :
    ∃ d, u.out.riTxData = some d ∧ ∀ v, x.txMem.read x.tailTx = some v → d = v := by
  cases h with
  | rxcEvent _ h | dreEvent _ h | command _ _ _ h => exact (exec_effect h).riTxData_of_write hw
  | illegal _ _ _ h | idle _ h => subst h; cases hw

end

/-- Settles O17: the instructions that access the data register are the two events, and the grant tells which is
performed. -/
theorem dataRegisterAccessedExactlyByEvents : Obligations.DataRegisterAccessedExactlyByEvents := by
  intro s t h hr
  obtain ⟨ht, -⟩ | ⟨-, u, hp, rfl⟩ := step_cases h
  · exact nomatch hr.symm.trans ht
  · rw [State.endOp_out, hp.grant]
    exact ⟨hp.riRxRd_iff, hp.riTxWr_iff, hp.riTxData_of_write⟩

/-! ## Another byte waiting -/

/-- `s` with the byte `d` on `ri_rx_data`, all else as it is. -/
def State.withRxData (s : State) (d : Byte) : State :=
  { s with inp := { s.inp with rx := { s.inp.rx with data := d } } }

/-- `u` is `t` but for the byte in receive slot `k`, the waiting byte and what the log says of pushes. -/
structure SameButRxByte (k : Nat) (t u : State) : Prop where
  out : u.out = t.out
  regs : u.regs = t.regs
  txMem : u.txMem = t.txMem
  rxTag : u.rxTag = t.rxTag
  rxMem : ∀ i, i ≠ k → u.rxMem.read i = t.rxMem.read i
  wire : u.wireTrace = t.wireTrace

theorem State.sameButRxByte_withRxData (k : Nat) (s : State) (d : Byte) : SameButRxByte k s (s.withRxData d) :=
  ⟨rfl, rfl, rfl, rfl, fun _ _ => rfl, rfl⟩

/-- A choice that does not see the byte is made alike in both runs. -/
theorem SameButRxByte.ite {c : Prop} [Decidable c] {k : Nat} {t t' u u' : State} (h : SameButRxByte k t u)
    (h' : SameButRxByte k t' u') : SameButRxByte k (if c then t else t') (if c then u else u') := by
  split
  · exact h
  · exact h'

theorem SameButRxByte.endOp {k : Nat} {t u : State} (h : SameButRxByte k t u) (a b : State) :
    SameButRxByte k (State.endOp a t) (State.endOp b u) where
  out := by simp [h.out]
  regs := by simp [h.regs]
  txMem := by simp [h.txMem]
  rxTag := by simp [h.rxTag]
  rxMem := by simpa using h.rxMem
  wire := (traceOf_endOp (fun _ => rfl) b u).trans (h.wire.trans (traceOf_endOp (fun _ => rfl) a t).symm)

theorem SameButRxByte.pause {k : Nat} {t u : State} (h : SameButRxByte k t u) : SameButRxByte k t.pause u.pause where
  out := congrArg (fun o : Outputs => { o with fcPause := true }) h.out
  regs := congrArg (fun r : Regs => { r with fcPaused := true }) h.regs
  txMem := h.txMem
  rxTag := h.rxTag
  rxMem := h.rxMem
  wire := h.wire

/-! ### The receive event stores the byte and looks at it no further -/

/-- `RXC_EVENT`, by the free space before it and after it (R91, R93, R100). -/
theorem exec_rxcEvent_eq (s : State) :
    exec .rxcEvent s = .next (if s.isFull .rx then s.dropped1 else s.stored1.flowControlAfterPush) := by
  obtain ⟨t, ht⟩ := exec_next .rxcEvent s
  rw [ht]
  cases exec_effect ht with
  | notInit _ hc => cases hc
  | rxcFull hf => rw [if_pos hf]
  | rxc hf hq =>
    obtain ⟨hn, hp, hle, -⟩ | ⟨-, he⟩ := s.stored1.flowControlAfterPush_eq
    · obtain ha | hb | hlt := hq
      · exact nomatch hn.symm.trans ha
      · exact nomatch hp.symm.trans hb
      · exact absurd hlt hle.not_gt
    · simp [hf, he]
  | rxcPause hf hn hp hq =>
    have hc : (s.params.fcEn && !s.fcPaused && s.stored1.free .rx ≤ s.params.lowWm) = true := by simp [hn, hp, hq]
    simp only [hf, Bool.false_eq_true, if_false]
    exact congrArg _ (if_pos hc).symm

/-- The push of the event writes the byte to the slot under `head[RX]`, and its errors beside it (R91). -/
theorem State.sameButRxByte_stored1 (s : State) (d : Byte) :
    SameButRxByte s.headRx s.stored1 (s.withRxData d).stored1 where
  out := rfl
  regs := rfl
  txMem := rfl
  rxTag := rfl
  rxMem _ hi := (Memory.read_write_other _ _ hi).trans (Memory.read_write_other _ _ hi).symm
  wire := rfl

/-- Whether the byte is dropped or stored, and whether the sender is paused, does not depend on the byte (R91, R100). -/
theorem exec_rxcEvent_withRxData {s t : State} (h : exec .rxcEvent s = .next t) (d : Byte) :
    ∃ u, exec .rxcEvent (s.withRxData d) = .next u ∧ SameButRxByte s.headRx t u := by
  rw [exec_rxcEvent_eq] at h
  injection h with h
  subst h
  have hs := s.sameButRxByte_stored1 d
  exact ⟨_, exec_rxcEvent_eq _, .ite (s.dropped1.sameButRxByte_withRxData _ d) (.ite hs.pause hs)⟩

/-! ### No other instruction looks at it -/

/-- A choice that does not see the byte, between states that differ by the waiting byte alone. -/
theorem ite_withRxData {c : Prop} {_ : Decidable c} {d : Byte} {t t' u u' : State} (h : u = t.withRxData d)
    (h' : u' = t'.withRxData d) : (if c then u else u') = (if c then t else t').withRxData d := by
  split
  · exact h
  · exact h'

theorem State.tryPush_tx_withRxData (s : State) (v d : Byte) :
    (s.withRxData d).tryPush .tx v = (s.tryPush .tx v).map (State.withRxData · d) := by
  obtain ⟨hf, e⟩ | ⟨hf, e⟩ := s.tryPush_eq .tx v
  · rw [e]
    exact if_pos hf
  · rw [e]
    exact if_neg (ne_true_of_eq_false hf)

theorem State.tryPop_withRxData (s : State) (b : Buf) (d : Byte) :
    (s.withRxData d).tryPop b = (s.tryPop b).map (Prod.map id (State.withRxData · d)) := by
  obtain ⟨he, e⟩ | ⟨he, e⟩ := s.tryPop_eq b
  · rw [e]
    cases b <;> exact if_pos he
  · rw [e]
    cases b <;> exact if_neg (ne_true_of_eq_false he)

theorem State.flowControlAfterPop_withRxData (s : State) (d : Byte) :
    (s.withRxData d).flowControlAfterPop = s.flowControlAfterPop.withRxData d :=
  ite_withRxData rfl rfl

theorem State.sendByte_withRxData (s : State) (v d : Byte) :
    (s.withRxData d).sendByte v = (s.sendByte v).withRxData d := by
  unfold State.sendByte
  rw [s.tryPush_tx_withRxData]
  cases s.tryPush .tx v <;> rfl

theorem State.receive_withRxData (s : State) (d : Byte) :
    (s.withRxData d).receive = s.receive.withRxData d := by
  have hp : State.tryPop { s.withRxData d with ovf := false } .rx = _ :=
    State.tryPop_withRxData { s with ovf := false } .rx d
  unfold State.receive
  rw [hp]
  cases State.tryPop { s with ovf := false } .rx with
  | none => rfl
  | some p => exact congrArg (State.respond · _) (p.2.flowControlAfterPop_withRxData d)

/-- An instruction other than the receive event does the same with another byte waiting, which it leaves (R157). -/
theorem exec_withRxData {i : Instr} {s t : State} (h : exec i s = .next t) (hi : i ≠ .rxcEvent) (d : Byte) :
    exec i (s.withRxData d) = .next (t.withRxData d) := by
  cases i with
  | rxcEvent => exact absurd rfl hi
  | dreEvent =>
    cases h
    simp only [exec, execDreEvent, State.tryPop_withRxData]
    cases s.tryPop .tx <;> rfl
  | send v => cases h; exact congrArg Host.Outcome.next (ite_withRxData (s.sendByte_withRxData v d) rfl)
  | tryRecv => cases h; exact congrArg Host.Outcome.next (ite_withRxData (s.receive_withRxData d) rfl)
  | setFmt => cases h; exact congrArg Host.Outcome.next (ite_withRxData (ite_withRxData rfl rfl) rfl)
  | _ => cases h; exact congrArg Host.Outcome.next (ite_withRxData rfl rfl)

/-! ### So a step differs by the stored byte -/

theorem step_of_reset {s : State} (hr : s.sample.inp.rst = true) : step s = .next s.sample.hardReset := by
  simp [step, hr]

/-- FG's arm of the step, at a word that is no command (R68). -/
theorem State.perform_of_reject {s : State} {r : Reject} (hg : s.arbitrate = .fg)
    (hd : decode s.inp.cmd.word = .reject r) : s.perform = .next ((s.beginOp .fg).refuse .illegal) := by
  simp [State.perform, State.performCommand, hg, hd]

/-- The arbiter and the decoder do not look at the byte, so the same operation is performed (R151). -/
theorem Performed.withRxData {x t : State} (h : Performed x t) (d : Byte) :
    ∃ u, (x.withRxData d).perform = .next u ∧ SameButRxByte x.headRx t u := by
  cases h with
  | rxcEvent hg h =>
    obtain ⟨u, hu, hs⟩ := exec_rxcEvent_withRxData h d
    exact ⟨u, (State.perform_of_rxcEvent (s := x.withRxData d) hg).trans hu, hs⟩
  | dreEvent hg h =>
    exact ⟨_, (State.perform_of_dreEvent (s := x.withRxData d) hg).trans (exec_withRxData h nofun d),
      t.sameButRxByte_withRxData _ d⟩
  | command i hg hd h =>
    obtain ⟨hi, -⟩ := ne_event_of_decode hd
    exact ⟨_, (State.perform_of_fg (s := x.withRxData d) hg hd).trans (exec_withRxData h hi d),
      t.sameButRxByte_withRxData _ d⟩
  | illegal r hg hd h =>
    subst h
    exact ⟨_, State.perform_of_reject (s := x.withRxData d) hg hd,
      ((x.beginOp .fg).refuse .illegal).sameButRxByte_withRxData _ d⟩
  | idle hg h =>
    subst h
    exact ⟨_, State.perform_of_idle (s := x.withRxData d) hg, (x.beginOp .idle).sameButRxByte_withRxData _ d⟩

/-- A frame that drives the receive side hides the byte that waited; any other leaves it waiting (R10). -/
theorem Frame.apply_rxData (f : Frame) (i : Inputs) (d : Byte) :
    ∃ e, f.apply { i with rx := { i.rx with data := d } } =
      { f.apply i with rx := { (f.apply i).rx with data := e } } := by
  cases hf : f.rx with
  | none => exact ⟨d, by simp [Frame.apply, hf]⟩
  | some p => exact ⟨p.data, by simp [Frame.apply, hf]⟩

theorem State.sample_withRxData (s : State) (d : Byte) : ∃ e, (s.withRxData d).sample = s.sample.withRxData e :=
  have ⟨e, he⟩ := s.nextFrame.apply_rxData s.inp d
  ⟨e, congrArg (fun i : Inputs => { s.sample with inp := i }) he⟩

theorem step_withRxData {s t : State} (h : step s = .next t) (d : Byte) :
    ∃ u, step (s.withRxData d) = .next u ∧ SameButRxByte s.headRx t u := by
  obtain ⟨e, he⟩ := s.sample_withRxData d
  obtain ⟨hr, rfl⟩ | ⟨hr, t, hp, rfl⟩ := step_cases h
  · have hr' : (s.withRxData d).sample.inp.rst = true := by rw [he]; exact hr
    refine ⟨_, step_of_reset hr', ?_⟩
    rw [he]
    exact s.sample.hardReset.sameButRxByte_withRxData _ e
  · obtain ⟨u, hu, hs⟩ := hp.withRxData e
    have hr' : (s.withRxData d).sample.inp.rst = false := by rw [he]; exact hr
    refine ⟨_, ?_, hs.endOp s.sample (s.sample.withRxData e)⟩
    rw [step_of_not_reset hr', he, hu]
    rfl

/-- Settles O46: another waiting byte changes no choice of the step, only what the receive event stores. -/
theorem receivedBytesAreNeverInterpreted : Obligations.ReceivedBytesAreNeverInterpreted := by
  intro s t u d ht hu
  obtain ⟨v, hv, hs⟩ := step_withRxData ht d
  obtain rfl : v = u := Host.Outcome.next.inj (hv.symm.trans hu)
  exact ⟨hs.out, hs.regs, fun i => by rw [hs.txMem], fun i => by rw [hs.rxTag], hs.rxMem, hs.wire⟩

end Sys2Proof.Machine

/-!
SUPPORT. The statements of spec/30_encoding.md about words alone: decoding and encoding are inverse (R55 to R59, R66), the
match and mask table (R58), the operand fields (R56), the illegal words (R68), the response word (R62).
-/

namespace Sys2Proof

/-! ## The opcode map, case by case (R57) -/

/-- Every opcode is one of the thirteen of R57 or reserved. -/
theorem opcode_cases {P : BitVec 4 → Prop} (init : P 0x1#4) (send : P 0x2#4) (tryRecv : P 0x3#4) (hasIn : P 0x4#4)
    (hasOut : P 0x5#4) (setRxcLvl : P 0x6#4) (setTxcLvl : P 0x7#4) (setDreLvl : P 0x8#4) (isEmpty : P 0x9#4)
    (isFull : P 0xA#4) (free : P 0xB#4) (setBaud : P 0xC#4) (setFmt : P 0xD#4)
    (reserved : ∀ op, op = 0x0#4 ∨ op = 0xE#4 ∨ op = 0xF#4 → P op) (op : BitVec 4) : P op := by
  have hmap : ∀ op : BitVec 4, op = 0x1#4 ∨ op = 0x2#4 ∨ op = 0x3#4 ∨ op = 0x4#4 ∨ op = 0x5#4 ∨ op = 0x6#4 ∨ op = 0x7#4 ∨
    op = 0x8#4 ∨ op = 0x9#4 ∨ op = 0xA#4 ∨ op = 0xB#4 ∨ op = 0xC#4 ∨ op = 0xD#4 ∨
    op = 0x0#4 ∨ op = 0xE#4 ∨ op = 0xF#4 := by decide
  obtain rfl | rfl | rfl | rfl | rfl | rfl | rfl | rfl | rfl | rfl | rfl | rfl | rfl | h := hmap op
  case inr => exact reserved op h
  all_goals assumption

theorem decodeFields_reserved {op : BitVec 4} (h : op = 0x0#4 ∨ op = 0xE#4 ∨ op = 0xF#4) (arg : BitVec 4)
    (imm : BitVec 24) : decodeFields op arg imm = .reject .reservedOp := by
  obtain rfl | rfl | rfl := h <;> rfl

/-! ## Decoding and encoding are inverse -/

theorem guardMbz_of_zero {z : Bool} (hz : z = true) (i : Instr) : guardMbz z i = .ok i := if_pos hz

theorem decodeSetFmt_of_legal {z : Bool} {f : FmtBits} (hz : z = true) (hf : fmtLegal f = true) :
    decodeSetFmt z f = .ok (.setFmt f) :=
  (if_pos hz).trans (if_pos hf)

/-- Settles O1: the word's three fields are the opcode and the operands, with the must-be-zero bits 0. -/
theorem decodeInvertsEncode : Obligations.DecodeInvertsEncode := by
  intro i hw
  cases i with
  | rxcEvent | dreEvent => rfl
  | init l _ | setRxcLvl l | setTxcLvl l | setDreLvl l =>
    obtain ⟨hl, hz⟩ := argLevel_levelArg l
    refine (decode_packCmd ..).trans ((guardMbz_of_zero ?_ _).trans ?_) <;> simp [hl, hz]
  | isEmpty b | isFull b | free b =>
    obtain ⟨hb, hz⟩ := argBuf_bufArg b
    refine (decode_packCmd ..).trans ((guardMbz_of_zero ?_ _).trans ?_) <;> simp [hb, hz]
  | send v =>
    obtain ⟨hv, hz⟩ := immByte_byteImm v
    refine (decode_packCmd ..).trans ((guardMbz_of_zero ?_ _).trans ?_) <;> simp [hv, hz]
  | setFmt f =>
    obtain ⟨hf, hz⟩ := immFmt_fmtImm f
    refine (decode_packCmd ..).trans ((decodeSetFmt_of_legal ?_ ?_).trans ?_) <;> simp [hf, hz]
    exact hw
  | tryRecv | hasIn | hasOut | setBaud => exact (decode_packCmd ..).trans (guardMbz_of_zero rfl _)

/-- Three fields that decode are those of the operation's code, the must-be-zero bits being 0. -/
theorem encode_of_decodeFields {op arg : BitVec 4} {imm : BitVec 24} {i : Instr} (h : decodeFields op arg imm = .ok i) :
    i.wellFormed = true ∧ encode i = .cmd (packCmd op arg imm) := by
  cases op using opcode_cases with
  | init =>
    obtain ⟨hg, rfl⟩ := guardMbz_ok h
    exact ⟨rfl, by rw [encode, levelArg_argLevel arg (by simpa using hg)]⟩
  | send =>
    obtain ⟨hg, rfl⟩ := guardMbz_ok h
    obtain ⟨rfl, hz⟩ : arg = 0#4 ∧ immByteMbz imm = 0#16 := by simpa using hg
    exact ⟨rfl, by rw [encode, byteImm_immByte hz]⟩
  | tryRecv | hasIn | hasOut =>
    obtain ⟨hg, rfl⟩ := guardMbz_ok h
    obtain ⟨rfl, rfl⟩ : arg = 0#4 ∧ imm = 0#24 := by simpa using hg
    exact ⟨rfl, rfl⟩
  | setRxcLvl | setTxcLvl | setDreLvl =>
    obtain ⟨hg, rfl⟩ := guardMbz_ok h
    obtain ⟨hz, rfl⟩ : argLevelMbz arg = 0#2 ∧ imm = 0#24 := by simpa using hg
    exact ⟨rfl, by rw [encode, levelArg_argLevel arg hz]⟩
  | isEmpty | isFull | free =>
    obtain ⟨hg, rfl⟩ := guardMbz_ok h
    obtain ⟨hz, rfl⟩ : argBufMbz arg = 0#3 ∧ imm = 0#24 := by simpa using hg
    exact ⟨rfl, by rw [encode, bufArg_argBuf arg hz]⟩
  | setBaud =>
    obtain ⟨hg, rfl⟩ := guardMbz_ok h
    obtain rfl : arg = 0#4 := by simpa using hg
    exact ⟨rfl, rfl⟩
  | setFmt =>
    obtain ⟨hg, hf, rfl⟩ := decodeSetFmt_ok h
    obtain ⟨rfl, hz⟩ : arg = 0#4 ∧ immFmtMbz imm = 0#19 := by simpa using hg
    exact ⟨hf, by rw [encode, fmtImm_immFmt hz]⟩
  | reserved op hop => rw [decodeFields_reserved hop] at h; cases h

theorem encode_of_decode {w : CmdWord} {i : Instr} (h : decode w = .ok i) : i.wellFormed = true ∧ encode i = .cmd w := by
  simpa only [packCmd_fields] using encode_of_decodeFields h

theorem encode_of_decodeGrant {g : GrantCode} {i : Instr} (h : decodeGrant g = .ok i) :
    i.wellFormed = true ∧ encode i = .grant g := by
  unfold decodeGrant at h
  split_ifs at h with hr hd <;> cases h
  · exact ⟨rfl, by rw [hr, encode]⟩
  · exact ⟨rfl, by rw [hd, encode]⟩

/-- Settles O2: a command word is put together again from its fields, and a grant code is one of two. -/
theorem encodeInvertsDecode : Obligations.EncodeInvertsDecode := by
  intro c i h
  cases c with
  | cmd w => exact encode_of_decode h
  | grant g => exact encode_of_decodeGrant h

/-- Settles O5: the decoder is run on each word. -/
theorem specWordsDecode : Obligations.SpecWordsDecode :=
  ⟨rfl, rfl, rfl, rfl, rfl, rfl, rfl, rfl, rfl, rfl⟩

/-! ## The operand fields, at their positions in the word (R56) -/

/-- A field of a field of a word is a field of the word. -/
theorem extractLsb'_field {v n a b m : Nat} (x : BitVec v) (h : b + m ≤ n) :
    (x.extractLsb' a n).extractLsb' b m = x.extractLsb' (a + b) m := by
  apply BitVec.eq_of_getLsbD_eq
  intro i hi
  have hn : b + i < n := by omega
  simp [hi, hn, Nat.add_assoc]

section
variable (w : CmdWord)

theorem argLevel_argField : argLevel (argField w) = w.extractLsb' 24 2 :=
  extractLsb'_field w (by omega)

theorem argLevelMbz_argField : argLevelMbz (argField w) = w.extractLsb' 26 2 :=
  extractLsb'_field w (by omega)

theorem argBufMbz_argField : argBufMbz (argField w) = w.extractLsb' 25 3 :=
  extractLsb'_field w (by omega)

theorem argBuf_argField : argBuf (argField w) = if w.getLsbD 24 then .tx else .rx := by
  have hbit : ∀ a, argBuf a = if a.getLsbD 0 then .tx else .rx := by decide
  rw [hbit]
  simp [argField]

theorem immByte_immField : immByte (immField w) = w.extractLsb' 0 8 :=
  extractLsb'_field w (by omega)

theorem immByteMbz_immField : immByteMbz (immField w) = w.extractLsb' 8 16 :=
  extractLsb'_field w (by omega)

theorem immFmt_immField : immFmt (immField w) = w.extractLsb' 0 5 :=
  extractLsb'_field w (by omega)

theorem immFmtMbz_immField : immFmtMbz (immField w) = w.extractLsb' 5 19 :=
  extractLsb'_field w (by omega)

theorem fmtPmode_immFmt_immField : fmtPmode (immFmt (immField w)) = w.extractLsb' 2 2 := by
  rw [immFmt_immField]
  exact extractLsb'_field w (by omega)

end

/-- The fields of a word that decodes are those its operation is encoded by. -/
theorem fields_of_packCmd {op arg : BitVec 4} {imm : BitVec 24} {w : CmdWord} (h : Code.cmd (packCmd op arg imm) = .cmd w) :
    opField w = op ∧ argField w = arg ∧ immField w = imm := by
  cases h
  exact ⟨opField_packCmd .., argField_packCmd .., immField_packCmd ..⟩

theorem level_of_packCmd {op : BitVec 4} {l : Level} {imm : BitVec 24} {w : CmdWord}
    (h : Code.cmd (packCmd op (levelArg l) imm) = .cmd w) : l = w.extractLsb' 24 2 := by
  obtain ⟨-, harg, -⟩ := fields_of_packCmd h
  rw [← argLevel_argField, harg, (argLevel_levelArg l).1]

theorem buf_of_packCmd {op : BitVec 4} {b : Buf} {imm : BitVec 24} {w : CmdWord}
    (h : Code.cmd (packCmd op (bufArg b) imm) = .cmd w) : b = if w.getLsbD 24 then .tx else .rx := by
  obtain ⟨-, harg, -⟩ := fields_of_packCmd h
  rw [← argBuf_argField, harg, (argBuf_bufArg b).1]

/-- Settles O4: the word is the code of its operation, so the operand is read back from its position. -/
theorem operandsAreFieldsOfTheWord : Obligations.OperandsAreFieldsOfTheWord := by
  intro w
  refine ⟨fun l b h => ?_, fun v h => ?_, fun l h => ?_, fun b h => ?_, fun b h => ?_, fun f h => ?_⟩
  · have hc := (encode_of_decode h).2
    obtain ⟨-, -, himm⟩ := fields_of_packCmd hc
    exact ⟨level_of_packCmd hc, himm.symm⟩
  · obtain ⟨-, -, himm⟩ := fields_of_packCmd (encode_of_decode h).2
    rw [← immByte_immField, himm, (immByte_byteImm v).1]
  · obtain h | h | h := h <;> exact level_of_packCmd (encode_of_decode h).2
  · obtain h | h | h := h <;> exact buf_of_packCmd (encode_of_decode h).2
  · obtain ⟨-, -, himm⟩ := fields_of_packCmd (encode_of_decode h).2
    exact himm.symm
  · obtain ⟨-, -, himm⟩ := fields_of_packCmd (encode_of_decode h).2
    obtain rfl : f = immFmt (immField w) := by rw [himm, (immFmt_fmtImm f).1]
    refine ⟨immFmt_immField w, ?_, fmtPmode_immFmt_immField w, ?_⟩ <;> rw [immFmt_immField]
    · exact extractLsb'_field w (by omega)
    · simp [Machine.fmtSbmode]

/-! ## The match and mask table (R58) -/

/-- Of every instruction, what is proved of each constructor. -/
theorem rowOfEncoding (i : Instr) : Laws.RowOfEncoding.Statement i := by
  cases i with
  | init l b => exact Laws.RowOfEncoding.init l b
  | send v => exact Laws.RowOfEncoding.send v
  | tryRecv => exact Laws.RowOfEncoding.tryRecv
  | hasIn => exact Laws.RowOfEncoding.hasIn
  | hasOut => exact Laws.RowOfEncoding.hasOut
  | setRxcLvl l => exact Laws.RowOfEncoding.setRxcLvl l
  | setTxcLvl l => exact Laws.RowOfEncoding.setTxcLvl l
  | setDreLvl l => exact Laws.RowOfEncoding.setDreLvl l
  | isEmpty b => exact Laws.RowOfEncoding.isEmpty b
  | isFull b => exact Laws.RowOfEncoding.isFull b
  | free b => exact Laws.RowOfEncoding.free b
  | setBaud b => exact Laws.RowOfEncoding.setBaud b
  | setFmt f => exact Laws.RowOfEncoding.setFmt f
  | rxcEvent => exact Laws.RowOfEncoding.rxcEvent
  | dreEvent => exact Laws.RowOfEncoding.dreEvent

/-- A word that decodes hits the row of its operation's mnemonic. -/
theorem hits_of_decode {w : CmdWord} {i : Instr} (h : decode w = .ok i) :
    ∃ r ∈ cmdRows, r.mnemonic = i.mnemonic ∧ r.hits w = true := by
  obtain ⟨hw, hc⟩ := encode_of_decode h
  have hrow := rowOfEncoding i hw
  rw [hc] at hrow
  exact hrow.2

theorem rows_mnemonic_inj : ∀ r ∈ cmdRows, ∀ q ∈ cmdRows, r.mnemonic = q.mnemonic → r = q := by decide

theorem rows_opField_inj : ∀ r ∈ cmdRows, ∀ q ∈ cmdRows, opField r.pattern = opField q.pattern → r = q := by decide

theorem rows_opField_mask : ∀ r ∈ cmdRows, opField r.mask = 0xF#4 := by decide

/-- A word that hits a row does so field by field. -/
theorem CmdRow.fields_of_hits {r : CmdRow} {w : CmdWord} (h : r.hits w = true) :
    opField w &&& opField r.mask = opField r.pattern ∧ argField w &&& argField r.mask = argField r.pattern ∧
      immField w &&& immField r.mask = immField r.pattern := by
  have hw : w &&& r.mask = r.pattern := by simpa [CmdRow.hits] using h
  unfold opField argField immField
  rw [← hw]
  exact ⟨BitVec.extractLsb'_and.symm, BitVec.extractLsb'_and.symm, BitVec.extractLsb'_and.symm⟩

/-- Every row fixes the whole opcode. -/
theorem CmdRow.opField_of_hits {r : CmdRow} {w : CmdWord} (hr : r ∈ cmdRows) (h : r.hits w = true) :
    opField w = opField r.pattern := by
  obtain ⟨hop, -, -⟩ := CmdRow.fields_of_hits h
  rw [← hop, rows_opField_mask r hr]
  exact BitVec.and_allOnes.symm

theorem argLevelMbz_of_masked : ∀ a : BitVec 4, a &&& 0xC#4 = 0#4 → argLevelMbz a = 0#2 := by decide

theorem argBufMbz_of_masked : ∀ a : BitVec 4, a &&& 0xE#4 = 0#4 → argBufMbz a = 0#3 := by decide

theorem immByteMbz_of_masked {m : BitVec 24} (h : m &&& 0xFFFF00#24 = 0#24) : immByteMbz m = 0#16 := by
  have hf := congrArg immByteMbz h
  rw [immByteMbz, BitVec.extractLsb'_and] at hf
  exact (BitVec.and_allOnes (x := immByteMbz m)).symm.trans hf

theorem immFmtMbz_of_masked {m : BitVec 24} (h : m &&& 0xFFFFE0#24 = 0#24) : immFmtMbz m = 0#19 := by
  have hf := congrArg immFmtMbz h
  rw [immFmtMbz, BitVec.extractLsb'_and] at hf
  exact (BitVec.and_allOnes (x := immFmtMbz m)).symm.trans hf

theorem eq_zero_of_masked {n : Nat} {x : BitVec n} (h : x &&& BitVec.allOnes n = 0#n) : x = 0#n :=
  BitVec.and_allOnes.symm.trans h

/-- A format is legal unless the word's `cmd[3:2]` is 1 (R135). -/
theorem fmtLegal_immFmt_immField {w : CmdWord} : fmtLegal (immFmt (immField w)) = true ↔ w.extractLsb' 2 2 ≠ 1#2 := by
  rw [fmtLegal, fmtPmode_immFmt_immField, bne_iff_ne]

/-- A word that hits a row is a command of that row: the masked bits are the opcode and the must-be-zero bits, and
`PMODE` is checked by itself (R58). -/
theorem decode_of_hits {w : CmdWord} {r : CmdRow} (hr : r ∈ cmdRows) (h : r.hits w = true)
    (hp : ¬ (r.mnemonic = "SETFMT" ∧ w.extractLsb' 2 2 = 1#2)) : ∃ i, decode w = .ok i ∧ i.mnemonic = r.mnemonic := by
  obtain ⟨-, harg, himm⟩ := CmdRow.fields_of_hits h
  have hop := CmdRow.opField_of_hits hr h
  rw [decode, hop]
  clear h hop
  simp only [cmdRows, List.mem_cons, List.not_mem_nil, or_false] at hr
  -- In the order of R58: `INIT`, `SEND`, three rows without operand, three with a level, three with a buffer, `SETBAUD`,
  -- `SETFMT`.
  obtain rfl | rfl | rfl | rfl | rfl | rfl | rfl | rfl | rfl | rfl | rfl | rfl | rfl := hr
  · have ha := argLevelMbz_of_masked _ harg
    exact ⟨_, guardMbz_of_zero (by simp [ha]) _, rfl⟩
  · have ha := eq_zero_of_masked harg
    have hm := immByteMbz_of_masked himm
    exact ⟨_, guardMbz_of_zero (by simp [ha, hm]) _, rfl⟩
  iterate 3
    · have ha := eq_zero_of_masked harg
      have hm := eq_zero_of_masked himm
      exact ⟨_, guardMbz_of_zero (by simp [ha, hm]) _, rfl⟩
  iterate 3
    · have ha := argLevelMbz_of_masked _ harg
      have hm := eq_zero_of_masked himm
      exact ⟨_, guardMbz_of_zero (by simp [ha, hm]) _, rfl⟩
  iterate 3
    · have ha := argBufMbz_of_masked _ harg
      have hm := eq_zero_of_masked himm
      exact ⟨_, guardMbz_of_zero (by simp [ha, hm]) _, rfl⟩
  · have ha := eq_zero_of_masked harg
    exact ⟨_, guardMbz_of_zero (by simp [ha]) _, rfl⟩
  · have ha := eq_zero_of_masked harg
    have hm := immFmtMbz_of_masked himm
    exact ⟨_, decodeSetFmt_of_legal (by simp [ha, hm]) (fmtLegal_immFmt_immField.mpr fun hf => hp ⟨rfl, hf⟩), rfl⟩

/-- Only `SETFMT` has its mnemonic, and its `PMODE` is not 1 (R135). -/
theorem pmode_of_decode {w : CmdWord} {i : Instr} (h : decode w = .ok i) (hi : i.mnemonic = "SETFMT") :
    w.extractLsb' 2 2 ≠ 1#2 := by
  obtain ⟨hw, hc⟩ := encode_of_decode h
  cases i with
  | setFmt f =>
    obtain ⟨-, -, himm⟩ := fields_of_packCmd hc
    rw [← fmtLegal_immFmt_immField, himm, (immFmt_fmtImm f).1]
    exact hw
  | _ => simp [Instr.mnemonic] at hi

/-- Settles O3: a decoded word hits the row of its mnemonic, a hit row decodes, and the opcode tells the rows apart. -/
theorem decodeFollowsMatchMaskTable : Obligations.DecodeFollowsMatchMaskTable := by
  refine ⟨fun w r hr => ⟨fun ⟨h, hp⟩ => decode_of_hits hr h hp, fun ⟨i, hd, hi⟩ => ?_⟩, fun w r q hr hq h h' => ?_,
    fun w hno i hd => ?_⟩
  · obtain ⟨q, hq, hqi, hqw⟩ := hits_of_decode hd
    obtain rfl := rows_mnemonic_inj q hq r hr (hqi.trans hi)
    exact ⟨hqw, fun ⟨hm, hp⟩ => pmode_of_decode hd (hi.trans hm) hp⟩
  · exact rows_opField_inj r hr q hq ((CmdRow.opField_of_hits hr h).symm.trans (CmdRow.opField_of_hits hq h'))
  · obtain ⟨q, hq, -, hqw⟩ := hits_of_decode hd
    exact Bool.false_ne_true ((hno q hq).symm.trans hqw)

/-! ## The illegal words (R68) -/

theorem guardMbz_ne_ok {z : Bool} {i : Instr} : (∀ j, guardMbz z i ≠ .ok j) ↔ z = false := by
  cases z <;> simp [guardMbz]

theorem decodeSetFmt_ne_ok {z : Bool} {f : FmtBits} :
    (∀ j, decodeSetFmt z f ≠ .ok j) ↔ z = false ∨ fmtLegal f = false := by
  cases z <;> cases hf : fmtLegal f <;> simp [decodeSetFmt, hf]

/-- The listed words are those whose opcode is reserved or whose guard fails. -/
theorem illegalWord_iff (w : CmdWord) : Machine.IllegalWord w ↔ ∀ i, decode w ≠ .ok i := by
  have hop : w.extractLsb' 28 4 = opField w := rfl
  have harg : w.extractLsb' 24 4 = argField w := rfl
  have himm : w.extractLsb' 0 24 = immField w := rfl
  rw [decode, Machine.IllegalWord, hop, harg, himm, ← argLevelMbz_argField, ← argBufMbz_argField, ← immByteMbz_immField,
    ← immFmtMbz_immField, ← fmtPmode_immFmt_immField]
  generalize opField w = op, argField w = arg, immField w = imm
  cases op using opcode_cases with
  | setFmt => simp [decodeFields, decodeSetFmt_ne_ok, imp_iff_not_or, fmtLegal, or_assoc]
  | reserved op h => simp [decodeFields_reserved h, h]
  | _ => simp [decodeFields, guardMbz_ne_ok, imp_iff_not_or]

/-- An illegal word is rejected, under one of the decoder's names for the cause. -/
theorem decode_of_illegalWord {w : CmdWord} (h : Machine.IllegalWord w) : ∃ r, decode w = .reject r := by
  cases hd : decode w with
  | ok i => exact absurd hd ((illegalWord_iff w).mp h i)
  | reject r => exact ⟨r, rfl⟩

theorem illegalWord_of_reject {w : CmdWord} {r : Reject} (h : decode w = .reject r) : Machine.IllegalWord w := by
  simp [illegalWord_iff, h]

theorem not_illegalWord_of_decode {w : CmdWord} {i : Instr} (h : decode w = .ok i) : ¬ Machine.IllegalWord w :=
  fun hw => (illegalWord_iff w).mp hw i h

/-- `INIT` is the operation whose opcode is 1 (R57). -/
theorem opField_eq_init_iff {w : CmdWord} {i : Instr} (h : decode w = .ok i) :
    opField w = 0x1#4 ↔ ∃ l b, i = .init l b := by
  obtain ⟨-, hc⟩ := encode_of_decode h
  cases i with
  | rxcEvent | dreEvent => cases hc
  | _ =>
    obtain ⟨hop, -, -⟩ := fields_of_packCmd hc
    simp [hop]

/-! ## The response word (R62) -/

theorem Machine.Rsp.ofWord_word (r : Machine.Rsp) : Machine.Rsp.ofWord r.word = r := by
  obtain ⟨err, errc, ok, nodata, ovf, ore, fe, val⟩ := r
  simp only [Machine.Rsp.ofWord, Machine.Rsp.word, Machine.Rsp.mk.injEq]
  refine ⟨?_, ?errc, ?_, ?_, ?_, ?_, ?_, ?val⟩
  case errc | val =>
    apply BitVec.eq_of_getLsbD_eq
    intro i hi
    simp only [BitVec.getLsbD_extractLsb', BitVec.getLsbD_append]
    interval_cases i <;> simp
  all_goals
    simp only [BitVec.getLsbD_append]
    simp

theorem Machine.Rsp.word_ofWord (w : RspWord) : (Machine.Rsp.ofWord w).word = w := by
  apply BitVec.eq_of_getLsbD_eq
  intro i hi
  simp only [Machine.Rsp.ofWord, Machine.Rsp.word, BitVec.getLsbD_extractLsb', BitVec.getLsbD_append]
  interval_cases i <;> simp

/-- Settles O9: bit by bit, in both directions. -/
theorem responseFieldsAndWordAgree : Obligations.ResponseFieldsAndWordAgree :=
  ⟨Machine.Rsp.ofWord_word, Machine.Rsp.word_ofWord⟩

end Sys2Proof

/-!
SUPPORT. The statements of spec/30_encoding.md about steps: when a response is driven (R60, R61), which one a command gets
(R63), and that a refused command changes nothing (R68, R69).
-/

namespace Sys2Proof.Machine

/-! ## When a response is driven -/

/-- The outputs show a response exactly if they show the grant of FG, and `rsp` is 0 without one (R60, R61, R66). -/
structure RspDriven (o : Outputs) : Prop where
  valid : o.rspValid = true ↔ o.grant = .fg
  ready : o.cmdReady = true ↔ o.grant = .fg
  zero : o.rspValid = false → o.rsp = 0#16

/-- Every command responds, a refused one too, and no handler event does. -/
theorem Effect.rspDriven {x u : State} {g : Grant} {i : Instr} (h : Effect (x.beginOp g) i u)
    (hg : g = .fg ↔ i.isCommand = true) : RspDriven u.out := by
  cases h with
  | notInit _ hc => exact ⟨iff_of_true rfl (hg.mpr hc), iff_of_true rfl (hg.mpr hc), nofun⟩
  | rxcFull | rxc | rxcPause | dreEmpty | dre =>
    have hne : g ≠ .fg := fun hf => nomatch hg.mp hf
    exact ⟨iff_of_false nofun hne, iff_of_false nofun hne, fun _ => rfl⟩
  | _ => exact ⟨iff_of_true rfl (hg.mpr rfl), iff_of_true rfl (hg.mpr rfl), nofun⟩

theorem Performed.rspDriven {x u : State} (h : Performed x u) : RspDriven u.out := by
  cases h with
  | rxcEvent _ h | dreEvent _ h => exact (exec_effect h).rspDriven (iff_of_false nofun nofun)
  | command _ _ hd h => exact (exec_effect h).rspDriven (iff_of_true rfl (isCommand_of_decode hd))
  | illegal _ _ _ h => subst h; exact ⟨iff_of_true rfl rfl, iff_of_true rfl rfl, nofun⟩
  | idle _ h => subst h; exact ⟨iff_of_false nofun nofun, iff_of_false nofun nofun, fun _ => rfl⟩

theorem step_rspDriven {s t : State} (h : step s = .next t) : RspDriven t.out := by
  obtain ⟨-, rfl⟩ | ⟨-, u, hp, rfl⟩ := step_cases h
  · exact ⟨iff_of_false nofun nofun, iff_of_false nofun nofun, fun _ => rfl⟩
  · rw [State.endOp_out]
    exact hp.rspDriven

/-- Settles O18: a response goes with the grant of FG, and an event has another grant. -/
theorem responseExactlyWhenCommandPerformed : Obligations.ResponseExactlyWhenCommandPerformed := by
  intro s t h
  obtain ⟨hvalid, hready, hzero⟩ := step_rspDriven h
  refine ⟨hvalid, hready, hzero, fun hev => Bool.eq_false_iff.mpr fun hv => ?_⟩
  obtain he | he := hev <;> exact nomatch he.symm.trans (hvalid.mp hv)

/-! ## Which response a granted command gets -/

/-- A well-formed command is refused for its cause, or gives a response of its own without `ERR` (R63, R122, R123). -/
theorem Effect.refused_or_performed {s u : State} {i : Instr} (h : Effect s i u) (hc : i.isCommand = true)
    (hw : i.wellFormed = true) :
    (s.inited = false ∧ (¬ ∃ l b, i = .init l b) ∧ u = s.refuse .notInit) ∨
      (s.inited = true ∧ (∃ l b, i = .init l b) ∧ u = s.refuse .reInit) ∨
      ((s.inited = true ↔ ¬ ∃ l b, i = .init l b) ∧
        ∃ r : Rsp, r.err = false ∧ r.errc = 0#2 ∧ u.out.rsp = r.word) := by
  cases h with
  | notInit _ _ _ hi h => exact .inl ⟨h, fun ⟨l, b, he⟩ => hi l b he, rfl⟩
  | badFormat _ hf => exact nomatch hf.symm.trans hw
  | reInit l b h => exact .inr (.inl ⟨h, ⟨l, b, rfl⟩, rfl⟩)
  | init l b h => exact .inr (.inr ⟨by simp [h], _, rfl, rfl, rfl⟩)
  | rxcFull | rxc | rxcPause | dreEmpty | dre => cases hc
  | _ => exact .inr (.inr ⟨iff_of_true ‹s.inited = true› nofun, _, rfl, rfl, rfl⟩)

/-- What becomes of the command granted in the sampled state `x`: the causes of R63 in their order, or none. -/
inductive Answered (x u : State) : Prop where
  | illegal (hw : IllegalWord x.inp.cmd.word) (hu : u = (x.beginOp .fg).refuse .illegal)
  | notInit (hw : ¬ IllegalWord x.inp.cmd.word) (hi : x.inited = false) (hop : opField x.inp.cmd.word ≠ 0x1#4)
      (hu : u = (x.beginOp .fg).refuse .notInit)
  | reInit (hw : ¬ IllegalWord x.inp.cmd.word) (hi : x.inited = true) (hop : opField x.inp.cmd.word = 0x1#4)
      (hu : u = (x.beginOp .fg).refuse .reInit)
  | performed (hw : ¬ IllegalWord x.inp.cmd.word) (hi : x.inited = true ↔ opField x.inp.cmd.word ≠ 0x1#4) (r : Rsp)
      (he : r.err = false) (hc : r.errc = 0#2) (hr : u.out.rsp = r.word)

theorem Performed.answered {x u : State} (h : Performed x u) (hg : x.arbitrate = .fg) : Answered x u := by
  cases h with
  | rxcEvent hg' | dreEvent hg' | idle hg' => exact nomatch hg.symm.trans hg'
  | illegal _ _ hd h => exact .illegal (illegalWord_of_reject hd) h
  | command i _ hd h =>
    have hw := not_illegalWord_of_decode hd
    have hop := opField_eq_init_iff hd
    obtain ⟨hi, hn, hu⟩ | ⟨hi, hn, hu⟩ | ⟨hi, r, he, hc, hr⟩ :=
      (exec_effect h).refused_or_performed (isCommand_of_decode hd) (encode_of_decode hd).1
    · exact .notInit hw hi (mt hop.mp hn) hu
    · exact .reInit hw hi (hop.mpr hn) hu
    · exact .performed hw (hi.trans (not_congr hop.symm)) r he hc hr

theorem Rsp.word_refusal_illegal : (Rsp.refusal .illegal).word = 0xA000#16 := by decide
theorem Rsp.word_refusal_notInit : (Rsp.refusal .notInit).word = 0xC000#16 := by decide
theorem Rsp.word_refusal_reInit : (Rsp.refusal .reInit).word = 0xE000#16 := by decide

/-- Settles O7: the granted command has one of four answers, and each clause is about one. -/
theorem refusalCodesFollowTheCause : Obligations.RefusalCodesFollowTheCause := by
  intro s hr hg
  obtain ⟨t, h⟩ := step_next s
  obtain ⟨hr', -⟩ | ⟨-, u, hp, rfl⟩ := step_cases h
  · exact nomatch hr.symm.trans hr'
  refine ⟨_, h, ?_⟩
  rw [State.endOp_out]
  cases hp.answered hg with
  | illegal hw hu =>
    subst hu
    exact ⟨fun _ => Rsp.word_refusal_illegal, fun hn => absurd hw hn, fun hn => absurd hw hn, fun hn => absurd hw hn⟩
  | notInit hw hi hop hu =>
    subst hu
    exact ⟨fun hill => absurd hill hw, fun _ _ _ => Rsp.word_refusal_notInit, fun _ _ heq => absurd heq hop,
      fun _ hiff => nomatch hi.symm.trans (hiff.mpr hop)⟩
  | reInit hw hi hop hu =>
    subst hu
    exact ⟨fun hill => absurd hill hw, fun _ _ hne => absurd hop hne, fun _ _ _ => Rsp.word_refusal_reInit,
      fun _ hiff => absurd hop (hiff.mp hi)⟩
  | performed hw hi r he hc hrsp =>
    refine ⟨fun hill => absurd hill hw, fun _ hf hne => ?_, fun _ ht heq => absurd heq (hi.mp ht), fun _ _ => ?_⟩
    · exact nomatch hf.symm.trans (hi.mpr hne)
    · rw [hrsp, Rsp.ofWord_word]
      exact ⟨he, hc⟩

/-! ## A refused command changes nothing -/

/-- A refusal ends without an entry of `RICFG`. -/
theorem State.endOp_refuse (x : State) (c : RefusalCode) :
    State.endOp x ((x.beginOp .fg).refuse c) = (x.beginOp .fg).refuse c :=
  State.endOp_of_riCfg_eq rfl

@[simp] theorem State.regs_sample (s : State) : s.sample.regs = s.regs := rfl

/-- From before the step's sampling to after its refusal no register, no slot and no driven configuration value changes
(R69). -/
theorem State.refuse_unchanged (s : State) (c : RefusalCode) :
    ((s.sample.beginOp .fg).refuse c).regs = s.regs ∧ SameSlots s ((s.sample.beginOp .fg).refuse c) ∧
      ((s.sample.beginOp .fg).refuse c).riCfg = s.riCfg := by
  refine ⟨?_, ?_, ?_⟩
  · simp [State.refuse]
  · simp [State.refuse, SameSlots]
  · simp [State.refuse, State.riCfg, State.effectiveDreLvl]

/-- Settles O6: the decoder rejects the listed words, and a rejected word is refused. -/
theorem illegalWordsAreRefused : Obligations.IllegalWordsAreRefused := by
  refine ⟨illegalWord_iff, .inl (.inl rfl), .inl (.inr (.inr rfl)), fun s hr hg hw => ?_⟩
  obtain ⟨r, hd⟩ := decode_of_illegalWord hw
  obtain ⟨hregs, hslots, -⟩ := s.refuse_unchanged .illegal
  refine ⟨_, ?_, hregs, hslots, ?_⟩
  · rw [step_of_not_reset hr, State.perform_of_reject hg hd, endOutcome, State.endOp_refuse]
  · rw [← Rsp.word_refusal_illegal]
    rfl

/-- An answer with `ERR` = 1 is a refusal. -/
theorem Answered.refuse_of_err {x u : State} (h : Answered x u) (he : (Rsp.ofWord u.out.rsp).err = true) :
    ∃ c, u = (x.beginOp .fg).refuse c := by
  cases h with
  | illegal _ hu | notInit _ _ _ hu | reInit _ _ _ hu => exact ⟨_, hu⟩
  | performed _ _ r hr _ hu =>
    rw [hu, Rsp.ofWord_word, hr] at he
    cases he

/-- A step that answers `ERR` = 1 takes FG's grant and refuses, and that is all. -/
theorem step_refuse_of_err {s t : State} (h : step s = .next t) (hv : t.out.rspValid = true)
    (he : (Rsp.ofWord t.out.rsp).err = true) :
    s.sample.inp.rst = false ∧ ∃ c, t = (s.sample.beginOp .fg).refuse c := by
  obtain ⟨-, rfl⟩ | ⟨hr, u, hp, rfl⟩ := step_cases h
  · cases hv
  · rw [State.endOp_out] at hv he
    have hg : s.sample.arbitrate = .fg := hp.grant.symm.trans (hp.rspDriven.valid.mp hv)
    obtain ⟨c, rfl⟩ := (hp.answered hg).refuse_of_err he
    exact ⟨hr, c, State.endOp_refuse s.sample c⟩

/-- Settles O8: the step is a refusal, and its traces are what its outputs show. -/
theorem refusedCommandChangesNothing : Obligations.RefusedCommandChangesNothing := by
  intro s t h hv he
  obtain ⟨hr, c, rfl⟩ := step_refuse_of_err h hv he
  obtain ⟨hgrant, hrsp, hwire, hfc, hcfg⟩ := (tracesRecordTheOutputs s _ h).2 hr
  obtain ⟨hregs, hslots, hsame⟩ := s.refuse_unchanged c
  refine ⟨hregs, hslots, rfl, rfl, rfl, rfl, rfl, hrsp, hgrant, ?_, ?_, ?_, ?_⟩
  · exact hwire.trans (List.append_nil _)
  · exact hfc.trans ((List.append_nil _).trans (List.append_nil _))
  · exact hcfg.trans ((congrArg _ (if_pos hsame)).trans (List.append_nil _))
  · cases c with
    | illegal => exact .inl Rsp.word_refusal_illegal
    | notInit => exact .inr (.inl Rsp.word_refusal_notInit)
    | reInit => exact .inr (.inr Rsp.word_refusal_reInit)

end Sys2Proof.Machine

/-!
SUPPORT. The statements of spec/41_buffer_primitives.md: the count and the free space of a buffer (R75 to R78), the three
queries (R82 to R84), and that both buffers lose no byte and keep their order (R85, R86).
-/

namespace Sys2Proof.Machine

/-! ## The count, and emptiness and fullness by it -/

section
variable {s t : State} {b : Buf} {v : Byte}

/-- `x & mask` is the remainder by the size, which is a power of two (R7, R81). -/
theorem State.and_mask (s : State) (b : Buf) (x : Nat) : x &&& (s.slots b - 1) = x % s.slots b := by
  rw [s.slots_eq_two_pow b, Nat.and_two_pow_sub_one_eq_mod]

/-- The count by remainder (R75). -/
theorem State.count_mod (h : s.CursorsInRange b) : s.count b = (s.head b + (s.slots b - s.tail b)) % s.slots b := by
  have hlt := s.count_lt b
  obtain ⟨hh, ht⟩ := h
  obtain ⟨hle, hc⟩ | ⟨hgt, hc⟩ := State.count_cases ⟨hh, ht⟩
  · rw [show s.head b + (s.slots b - s.tail b) = s.count b + s.slots b by omega, Nat.add_mod_right, Nat.mod_eq_of_lt hlt]
  · rw [show s.head b + (s.slots b - s.tail b) = s.count b by omega, Nat.mod_eq_of_lt hlt]

theorem State.count_eq_zero_iff (h : s.CursorsInRange b) : s.count b = 0 ↔ s.head b = s.tail b := by
  have hcases := State.count_cases h
  obtain ⟨hh, ht⟩ := h
  omega

/-- A buffer is full at the count N - 1 (R77). -/
theorem State.isFull_iff_count (h : s.CursorsInRange b) : s.isFull b = true ↔ s.count b = s.slots b - 1 := by
  rw [State.isFull_true]
  have hcases := State.count_cases h
  obtain ⟨hh, ht⟩ := h
  obtain ⟨hlt, hm⟩ | ⟨heq, hm⟩ := succ_mod_cases hh <;> rw [hm] <;> omega

theorem State.isEmpty_iff_count (h : s.CursorsInRange b) : s.isEmpty b = true ↔ s.count b = 0 := by
  rw [State.isEmpty_true, State.count_eq_zero_iff h]

/-- Settles O21: the count by cases and by remainder, and a head just below the tail is that of a full buffer. -/
theorem countIsTheCursorDifference : Obligations.CountIsTheCursorDifference := by
  intro s b h
  refine ⟨wrap_sub h.1 h.2, ?_, Nat.le_sub_one_of_lt (s.count_lt b), State.count_eq_zero_iff h, fun hhead => ?_⟩
  · rw [s.and_mask, State.count_mod h]
  · rw [s.and_mask] at hhead
    have hn : s.tail b + (s.slots b - 1) + 1 = s.tail b + s.slots b := by
      have := s.two_le_slots b
      omega
    refine (State.isFull_iff_count h).mp (State.isFull_true.mpr ?_)
    rw [hhead, Nat.mod_add_mod, hn, Nat.add_mod_right, Nat.mod_eq_of_lt h.2]

/-- Settles O22: a buffer has at least two slots, so the counts 0 and N - 1 differ. -/
theorem emptyAndFullByCount : Obligations.EmptyAndFullByCount := by
  intro s b h
  refine ⟨State.isEmpty_true, State.isEmpty_iff_count h, ?_, State.isFull_iff_count h, fun ⟨he, hf⟩ => ?_⟩
  · rw [s.and_mask, State.isFull_true]
  · have hn := s.two_le_slots b
    rw [State.isEmpty_iff_count h] at he
    rw [State.isFull_iff_count h] at hf
    omega

/-! ## The free space counts the pushes -/

theorem State.free_eq_zero_iff (h : s.CursorsInRange b) : s.free b = 0 ↔ s.isFull b = true := by
  have hlt := s.count_lt b
  rw [State.isFull_iff_count h, State.free]
  omega

theorem State.pushedTo_of_tryPush (h : s.tryPush b v = some t) : PushedTo b v s t := by
  obtain ⟨-, he⟩ | ⟨hf, he⟩ := s.tryPush_eq b v
  · exact nomatch he.symm.trans h
  · obtain rfl := Option.some.inj (he.symm.trans h)
    refine ⟨hf, ?_, ?_, ?_, ?_⟩ <;> cases b <;> simp [State.memWrite, State.advance_mod]

/-- Bytes can be pushed in a row exactly if there is free space for all of them (R78, R79). -/
theorem State.foldlM_tryPush_isSome (vs : List Byte) (h : s.CursorsInRange b) :
    (vs.foldlM (fun x v => State.tryPush x b v) s).isSome = true ↔ vs.length ≤ s.free b := by
  induction vs generalizing s with
  | nil => simp
  | cons v vs ih =>
    rw [List.foldlM_cons, List.length_cons]
    obtain ⟨hf, he⟩ | ⟨-, he⟩ := s.tryPush_eq b v <;> rw [he]
    · rw [(State.free_eq_zero_iff h).mpr hf]
      exact iff_of_false nofun (Nat.not_succ_le_zero _)
    · have hp := State.pushedTo_of_tryPush he
      rw [← hp.free h, Nat.add_le_add_iff_right]
      exact ih (hp.cursors h)

end

/-- Settles O23: a push that succeeds takes one byte of free space, and a push fails only where there is none. -/
theorem freeCountsPushesThatSucceed : Obligations.FreeCountsPushesThatSucceed := by
  intro s b h
  refine ⟨rfl, Nat.sub_le _ _, State.free_eq_zero_iff h, ?_, fun v t ht => (State.pushedTo_of_tryPush ht).free h,
    fun vs => State.foldlM_tryPush_isSome vs h⟩
  have hlt := s.count_lt b
  rw [State.isEmpty_iff_count h, State.free]
  omega

/-! ## The queries -/

/-- A query answers in an initialised block with its response and nothing else (R69). -/
theorem State.whenInited_respond_only {s : State} (h : s.inited = true) (r : Rsp) :
    OnlyResponded s r.word (s.whenInited (s.respond r)) := by
  rw [State.whenInited_true h]
  exact s.respond_only r

theorem exec_isEmpty (b : Buf) (s : State) :
    exec (.isEmpty b) s = .next (s.whenInited (s.respond (Rsp.result (s.isEmpty b)))) := rfl

theorem exec_isFull (b : Buf) (s : State) :
    exec (.isFull b) s = .next (s.whenInited (s.respond (Rsp.result (s.isFull b)))) := rfl

theorem exec_free (b : Buf) (s : State) :
    exec (.free b) s = .next (s.whenInited (s.respond (Rsp.value (freeVal s.draws (s.free b))))) := rfl

/-- Settles O24: the queries' results are equations between cursors. -/
theorem emptyAndFullQueriesAnswer : Obligations.EmptyAndFullQueriesAnswer := by
  intro s b hi
  refine ⟨⟨_, exec_isEmpty b s, ?_⟩, ⟨_, exec_isFull b s, ?_⟩⟩
  · simpa only [Rsp.word_result, State.isEmpty_true] using State.whenInited_respond_only hi (Rsp.result (s.isEmpty b))
  · simpa only [Rsp.word_result, State.isFull_true] using State.whenInited_respond_only hi (Rsp.result (s.isFull b))

theorem toNat_freeVal {free : Nat} (draw : Nat) (h : free < 256) : (freeVal draw free).toNat = free := by
  rw [freeVal, if_pos h, BitVec.toNat_ofNat, Nat.mod_eq_of_lt h]

/-- Settles O25: the free space is `freeBetween` of the cursors, and below 256 it fits `VAL`. -/
theorem freeQueryAnswers : Obligations.FreeQueryAnswers := by
  intro s b hi hc
  refine ⟨_, freeVal s.draws (s.free b), exec_free b s, ?_, fun hlt => ?_⟩
  · rw [← Rsp.word_value]
    exact State.whenInited_respond_only hi _
  · rw [← State.free_eq hc] at hlt ⊢
    exact toNat_freeVal _ hlt

/-! ## Conservation and order: what moves in and out of a buffer -/

/-- From `s` to `t` the bytes `ins` were pushed to `b` and the bytes `outs` popped from it, in these orders: behind what was
queued come the pushed bytes, and the popped bytes are the oldest of them all (R79, R80). -/
structure Moves (b : Buf) (ins outs : List Byte) (s t : State) : Prop where
  pushed : t.pushed b = s.pushed b ++ ins
  popped : t.popped b = s.popped b ++ outs
  queue : s.queue b ++ ins.map some = outs.map some ++ t.queue b

section
variable {b : Buf} {v : Byte} {ins outs : List Byte} {s t u : State}

theorem Moves.fifo (h : Moves b ins outs s t) (hs : s.Fifo b) : t.Fifo b := by
  rw [State.Fifo, h.pushed, h.popped, List.map_append, List.map_append, hs, List.append_assoc, h.queue, List.append_assoc]

theorem Moves.refl (b : Buf) (s : State) : Moves b [] [] s s :=
  ⟨(List.append_nil _).symm, (List.append_nil _).symm, List.append_nil _⟩

/-- What else happens to a state that leaves the queue and its log entries is no move. -/
theorem Moves.congr (h : Moves b ins outs s t) (hq : u.queue b = t.queue b) (hpush : u.pushed b = t.pushed b)
    (hpop : u.popped b = t.popped b) : Moves b ins outs s u :=
  ⟨hpush.trans h.pushed, hpop.trans h.popped, by rw [hq, h.queue]⟩

theorem PushedTo.moves (h : PushedTo b v s t) (hc : s.CursorsInRange b) (hpush : t.pushed b = s.pushed b ++ [v])
    (hpop : t.popped b = s.popped b) : Moves b [v] [] s t where
  pushed := hpush
  popped := hpop.trans (List.append_nil _).symm
  queue := (State.queue_push hc h.notFull h.slots h.tail h.head h.mem).2.2.symm

/-- The popped byte is the oldest queued one, since every queued slot is written (R54). -/
theorem PoppedFrom.moves (h : PoppedFrom b s t) (hc : s.CursorsInRange b) (hw : s.QueueWritten b)
    (hpush : t.pushed b = s.pushed b) (hpop : t.popped b = s.popped b ++ [s.memRead b (s.tail b)]) :
    Moves b [] [s.memRead b (s.tail b)] s t where
  pushed := hpush.trans (List.append_nil _).symm
  popped := hpop
  queue := by
    obtain ⟨-, -, hq⟩ := State.queue_pop hc h.notEmpty h.slots h.head h.tail h.mem
    have hread : (s.mem b).read (s.tail b) ≠ none := hw _ (by rw [hq]; exact List.mem_cons_self)
    obtain ⟨v, hv⟩ := Option.ne_none_iff_exists'.mp hread
    rw [hq, hv, State.memRead_of_read hv]
    exact List.append_nil _

/-- Before `INIT` nothing is queued (R171). -/
theorem State.Idle.queue_nil (h : s.Idle) (b : Buf) : s.queue b = [] := by
  cases b with
  | rx => exact State.queue_nil ((congrArg Regs.headRx h).trans (congrArg Regs.tailRx h).symm)
  | tx => exact State.queue_nil ((congrArg Regs.headTx h).trans (congrArg Regs.tailTx h).symm)

/-- `INIT` finds nothing queued and leaves nothing queued. -/
theorem State.Inv.queue_initialise (hs : s.Inv) (hi : s.inited = false) (l : Level) (r : Baud) (b : Buf) :
    (s.initialise l r).queue b = s.queue b := by
  rw [(hs.idleBeforeInit hi).queue_nil]
  cases b <;> exact State.queue_nil rfl

end

/-! ## Which responses are of a `TRYRECV` or a `SEND` that succeeded (R64) -/

theorem Rsp.getLsbD_word_ok (r : Rsp) : r.word.getLsbD 12 = r.ok := congrArg Rsp.ok (Rsp.ofWord_word r)

theorem Rsp.extractLsb'_word_val (r : Rsp) : r.word.extractLsb' 0 8 = r.val := congrArg Rsp.val (Rsp.ofWord_word r)

section
variable {s : State} {r : Rsp} {i : Instr}

theorem State.got_respond_of_not_ok (h : r.ok = false) : (s.respond r).got = s.got := by
  have he : Obs.got? (.rsp s.inp.cmd.word r.word) = none := by
    simp only [Obs.got?, Rsp.getLsbD_word_ok, h]
    split <;> rfl
  simp [State.got, recent_cons, he]

theorem State.got_respond_of_ne (hd : decode s.inp.cmd.word = .ok i) (hi : i ≠ .tryRecv) :
    (s.respond r).got = s.got := by
  have he : Obs.got? (.rsp s.inp.cmd.word r.word) = none := by
    simp only [Obs.got?]
    split
    · next h => exact absurd (Decoded.ok.inj (hd.symm.trans h)) hi
    · rfl
  simp [State.got, recent_cons, he]

theorem State.got_respond_of_tryRecv (hd : decode s.inp.cmd.word = .ok .tryRecv) (h : r.ok = true) :
    (s.respond r).got = s.got ++ [r.val] := by
  simp [State.got, recent_cons, Obs.got?, hd, Rsp.getLsbD_word_ok, Rsp.extractLsb'_word_val, h]

theorem State.sent_respond_of_not_ok (h : r.ok = false) : (s.respond r).sent = s.sent := by
  have he : Obs.sent? (.rsp s.inp.cmd.word r.word) = none := by
    simp only [Obs.sent?, Rsp.getLsbD_word_ok, h]
    split <;> rfl
  simp [State.sent, recent_cons, he]

theorem State.sent_respond_of_ne (hd : decode s.inp.cmd.word = .ok i) (hi : ∀ v, i ≠ .send v) :
    (s.respond r).sent = s.sent := by
  have he : Obs.sent? (.rsp s.inp.cmd.word r.word) = none := by
    simp only [Obs.sent?]
    split
    · next v h => exact absurd (Decoded.ok.inj (hd.symm.trans h)) (hi v)
    · rfl
  simp [State.sent, recent_cons, he]

theorem State.sent_respond_of_send {v : Byte} (hd : decode s.inp.cmd.word = .ok (.send v)) (h : r.ok = true) :
    (s.respond r).sent = s.sent ++ [v] := by
  simp [State.sent, recent_cons, Obs.sent?, hd, Rsp.getLsbD_word_ok, h]

end

/-! ## What an instruction moves -/

/-- A move of the receive buffer; the bytes popped are those `TRYRECV` returned (R95). -/
structure RxMoves (ins outs : List Byte) (s t : State) : Prop extends Moves .rx ins outs s t where
  got : t.got = s.got ++ outs

/-- A move of the transmit buffer; the bytes pushed are those of successful `SEND`s, the bytes popped those of `WIRE`
(R105, R107). -/
structure TxMoves (ins outs : List Byte) (s t : State) : Prop extends Moves .tx ins outs s t where
  sent : t.sent = s.sent ++ ins
  wired : t.wired = s.wired ++ outs

theorem RxMoves.refl (s : State) : RxMoves [] [] s s := ⟨.refl .rx s, (List.append_nil _).symm⟩

theorem TxMoves.refl (s : State) : TxMoves [] [] s s :=
  ⟨.refl .tx s, (List.append_nil _).symm, (List.append_nil _).symm⟩

section
variable {ins outs : List Byte} {s t u : State} {i : Instr}

theorem RxMoves.congr (h : RxMoves ins outs s t) (hq : u.queue .rx = t.queue .rx)
    (hpush : u.pushed .rx = t.pushed .rx) (hpop : u.popped .rx = t.popped .rx) (hgot : u.got = t.got) :
    RxMoves ins outs s u :=
  ⟨h.toMoves.congr hq hpush hpop, hgot.trans h.got⟩

theorem TxMoves.congr (h : TxMoves ins outs s t) (hq : u.queue .tx = t.queue .tx)
    (hpush : u.pushed .tx = t.pushed .tx) (hpop : u.popped .tx = t.popped .tx) (hsent : u.sent = t.sent)
    (hwired : u.wired = t.wired) : TxMoves ins outs s u :=
  ⟨h.toMoves.congr hq hpush hpop, hsent.trans h.sent, hwired.trans h.wired⟩

/-- Only the receive event pushes to the receive buffer and only `TRYRECV` pops from it (R161). -/
theorem Effect.rxMoves (h : Effect s i u) (hs : s.Inv) (hd : i.isCommand = true → decode s.inp.cmd.word = .ok i) :
    ∃ ins outs, RxMoves ins outs s u := by
  cases h with
  | notInit | badFormat | reInit | recvEmpty =>
    exact ⟨[], [], (RxMoves.refl s).congr rfl rfl rfl (State.got_respond_of_not_ok rfl)⟩
  | init l b hi =>
    exact ⟨[], [], (RxMoves.refl s).congr (hs.queue_initialise hi l b .rx) rfl rfl
      (State.got_respond_of_ne (hd rfl) nofun)⟩
  | recv _ he | recvResume _ he =>
    have hp : PoppedFrom .rx s s.popped1 := ⟨he, rfl, rfl, rfl, rfl⟩
    have hm := hp.moves hs.rxCursors hs.rxWritten rfl (recent_cons _ _ nofun)
    exact ⟨_, _, hm.congr rfl rfl rfl, State.got_respond_of_tryRecv (hd rfl) rfl⟩
  | rxc hf | rxcPause hf =>
    have hp : PushedTo .rx s.inp.rx.data s s.stored1 := ⟨hf, rfl, rfl, rfl, rfl⟩
    have hm := hp.moves hs.rxCursors (recent_cons _ _ nofun) rfl
    exact ⟨_, _, hm.congr rfl rfl rfl, (List.append_nil _).symm⟩
  | rxcFull | dreEmpty | dre => exact ⟨[], [], (RxMoves.refl s).congr rfl rfl rfl rfl⟩
  | _ => exact ⟨[], [], (RxMoves.refl s).congr rfl rfl rfl (State.got_respond_of_ne (hd rfl) nofun)⟩

/-- Only `SEND` pushes to the transmit buffer and only the transmit event pops from it (R161). -/
theorem Effect.txMoves (h : Effect s i u) (hs : s.Inv) (hd : i.isCommand = true → decode s.inp.cmd.word = .ok i) :
    ∃ ins outs, TxMoves ins outs s u := by
  cases h with
  | notInit | badFormat | reInit | sendFull =>
    exact ⟨[], [], (TxMoves.refl s).congr rfl rfl rfl (State.sent_respond_of_not_ok rfl) rfl⟩
  | init l b hi =>
    exact ⟨[], [], (TxMoves.refl s).congr (hs.queue_initialise hi l b .tx) rfl rfl
      (State.sent_respond_of_ne (hd rfl) nofun) rfl⟩
  | send v _ hf =>
    have hp : PushedTo .tx v s (s.sent1 v) := ⟨hf, rfl, rfl, rfl, rfl⟩
    have hm := hp.moves hs.txCursors (recent_cons _ _ nofun) rfl
    exact ⟨_, _, hm.congr rfl rfl rfl, State.sent_respond_of_send (hd rfl) rfl, (List.append_nil _).symm⟩
  | dre he =>
    have hp : PoppedFrom .tx s s.wired1 := ⟨he, rfl, rfl, rfl, rfl⟩
    have hpop : s.wired1.popped .tx = s.popped .tx ++ [s.memRead .tx s.tailTx] :=
      recent_cons (Obs.pop? .tx) (o := .pop .tx _) s.log nofun
    have hm := hp.moves hs.txCursors hs.txWritten rfl hpop
    exact ⟨_, _, hm, (List.append_nil _).symm, recent_cons _ _ nofun⟩
  | rxcFull | rxc | rxcPause | dreEmpty => exact ⟨[], [], (TxMoves.refl s).congr rfl rfl rfl rfl rfl⟩
  | _ => exact ⟨[], [], (TxMoves.refl s).congr rfl rfl rfl (State.sent_respond_of_ne (hd rfl) nofun) rfl⟩

end

/-! ## What a step moves -/

/-- From `s` to `t` both buffers conserve their bytes and keep them in order. -/
structure Conserves (s t : State) : Prop where
  rx : ∃ ins outs, RxMoves ins outs s t
  tx : ∃ ins outs, TxMoves ins outs s t

section
variable {s t u : State}

/-- Sampling and taking the grant move nothing, so the operation moves what the step does. -/
theorem Conserves.of_beginOp {g : Grant} (h : Conserves (s.sample.beginOp g) u) : Conserves s u := by
  obtain ⟨⟨_, _, hrx⟩, ⟨_, _, htx⟩⟩ := h
  exact ⟨⟨_, _, ⟨hrx.pushed, hrx.popped, hrx.queue⟩, hrx.got⟩,
    ⟨_, _, ⟨htx.pushed, htx.popped, htx.queue⟩, htx.sent, htx.wired⟩⟩

/-- An entry of `RICFG` is of no push, pop, `SEND`, `TRYRECV` or write. -/
theorem recent_endOp {α : Type} {f : Obs → Option α} (hf : ∀ c, f (.riCfg c) = none) (a u : State) :
    recent f (State.endOp a u).log = recent f u.log := by
  obtain ⟨-, hl⟩ | ⟨-, hl⟩ := State.endOp_log a u <;> rw [hl]
  rw [recent_cons (o := .riCfg _) f u.log nofun, hf]
  exact List.append_nil _

theorem Conserves.endOp (h : Conserves s u) (a : State) : Conserves s (State.endOp a u) := by
  have hq (b : Buf) : (State.endOp a u).queue b = u.queue b := by
    refine (State.queue_congr ?_ ?_ ?_ ?_).2 <;> cases b <;> simp
  have hlog {α : Type} {f : Obs → Option α} (hf : ∀ c, f (.riCfg c) = none) := recent_endOp hf a u
  obtain ⟨⟨_, _, hrx⟩, ⟨_, _, htx⟩⟩ := h
  exact ⟨⟨_, _, hrx.congr (hq .rx) (hlog fun _ => rfl) (hlog fun _ => rfl) (hlog fun _ => rfl)⟩,
    ⟨_, _, htx.congr (hq .tx) (hlog fun _ => rfl) (hlog fun _ => rfl) (hlog fun _ => rfl) (hlog fun _ => rfl)⟩⟩

theorem Effect.conserves {i : Instr} (h : Effect s i u) (hs : s.Inv)
    (hd : i.isCommand = true → decode s.inp.cmd.word = .ok i) : Conserves s u :=
  ⟨h.rxMoves hs hd, h.txMoves hs hd⟩

theorem Conserves.refl (s : State) : Conserves s s := ⟨⟨[], [], .refl s⟩, ⟨[], [], .refl s⟩⟩

theorem Conserves.refuse (s : State) (c : RefusalCode) : Conserves s (s.refuse c) :=
  ⟨⟨[], [], (RxMoves.refl s).congr rfl rfl rfl (State.got_respond_of_not_ok rfl)⟩,
    ⟨[], [], (TxMoves.refl s).congr rfl rfl rfl (State.sent_respond_of_not_ok rfl) rfl⟩⟩

theorem Performed.conserves (h : Performed s.sample u) (hs : s.Inv) : Conserves s u := by
  have hb (g : Grant) : (s.sample.beginOp g).Inv := hs.congr rfl rfl rfl rfl
  cases h with
  | rxcEvent _ h | dreEvent _ h => exact ((exec_effect h).conserves (hb _) nofun).of_beginOp
  | command _ _ hd h => exact ((exec_effect h).conserves (hb _) fun _ => hd).of_beginOp
  | illegal _ _ _ h => subst h; exact (Conserves.refuse _ _).of_beginOp
  | idle _ h => subst h; exact (Conserves.refl _).of_beginOp

/-- A step that does not reset conserves the bytes of both buffers. -/
theorem step_conserves (hs : s.Inv) (hr : s.sample.inp.rst = false) (h : step s = .next t) : Conserves s t := by
  obtain ⟨hr', -⟩ | ⟨-, u, hp, rfl⟩ := step_cases h
  · exact nomatch hr.symm.trans hr'
  · exact (hp.conserves hs).endOp _

/-- Right after a reset nothing is pushed, popped or queued (R170). -/
theorem State.fifo_hardReset (x : State) (b : Buf) : x.hardReset.Fifo b := by
  rw [State.Fifo, State.queue_nil (by cases b <;> rfl)]
  rfl

/-- The count is what was pushed and not yet popped (R85). -/
theorem State.Fifo.count_add_popped {b : Buf} (h : s.Fifo b) :
    s.count b + (s.popped b).length = (s.pushed b).length := by
  have hlen := congrArg List.length h
  rw [List.length_append, List.length_map, List.length_map, State.queue, slotsFrom_length] at hlen
  omega

theorem step_fifo (hs : s.Inv) (hrx : s.Fifo .rx) (htx : s.Fifo .tx) (hr : s.RxTraces) (ht : s.TxTraces)
    (h : step s = .next t) : t.Fifo .rx ∧ t.Fifo .tx ∧ t.RxTraces ∧ t.TxTraces := by
  obtain ⟨-, rfl⟩ | ⟨hrst, -⟩ := step_cases h
  · exact ⟨State.fifo_hardReset _ .rx, State.fifo_hardReset _ .tx, rfl, rfl, rfl⟩
  · obtain ⟨⟨_, _, mrx⟩, ⟨_, _, mtx⟩⟩ := step_conserves hs hrst h
    refine ⟨mrx.fifo hrx, mtx.fifo htx, ?_, ?_, ?_⟩
    · rw [State.RxTraces, mrx.got, mrx.popped, hr]
    · rw [mtx.sent, mtx.pushed, ht.1]
    · rw [mtx.wired, mtx.popped, ht.2]

end

/-- Settles O53: a reset starts both buffers anew, every other step conserves, and the counts follow from the lengths. -/
theorem buffersAreFifo : Obligations.BuffersAreFifo := by
  intro s t hs hrx htx hr ht h
  obtain ⟨frx, ftx, tr, tt⟩ := step_fifo hs hrx htx hr ht h
  exact ⟨frx, ftx, tr, tt, frx.count_add_popped, ftx.count_add_popped, Nat.le_sub_one_of_lt (t.count_lt .rx),
    Nat.le_sub_one_of_lt (t.count_lt .tx)⟩

end Sys2Proof.Machine

/-!
SUPPORT. The statements of spec/42_receive_path.md: the receive event with room and without (R91 to R94), `TRYRECV` on a
queued byte and on an empty buffer (R95 to R97), `HASIN` and `HASOUT` (R98, R110), and flow control (R99 to R104).
-/

namespace Sys2Proof.Machine

/-! ## The receive event -/

theorem sameSlots_refl (s : State) : SameSlots s s := ⟨fun _ => rfl, fun _ => rfl, fun _ => rfl⟩

/-- The free space after the event's push, between the advanced head and the tail (R78, R100). -/
theorem State.free_stored1 {s : State} (hc : s.CursorsInRange .rx) (hf : s.isFull .rx = false) :
    s.stored1.free .rx = freeBetween s.params.nRx ((s.headRx + 1) % s.params.nRx) s.tailRx :=
  have hp : PushedTo .rx s.inp.rx.data s s.stored1 := ⟨hf, rfl, rfl, rfl, rfl⟩
  State.free_eq (hp.cursors hc)

/-- Settles O33: the event stores the byte, and pauses the sender in just one of its two cases with room. -/
theorem rxcEventBuffersTheByte : Obligations.RxcEventBuffersTheByte := by
  intro s hc hroom h pauses
  have hfree : s.stored1.free .rx = freeBetween s.params.nRx h s.tailRx :=
    State.free_stored1 hc (State.isFull_false.mpr hroom)
  have hother (i : Nat) (hi : i ≠ s.headRx) :
      s.stored1.rxMem.read i = s.rxMem.read i ∧ s.stored1.rxTag.read i = s.rxTag.read i :=
    ⟨Memory.read_write_other _ _ hi, Memory.read_write_other _ _ hi⟩
  have hbyte : s.stored1.rxMem.read s.headRx = some s.inp.rx.data := Memory.read_write_same ..
  have htag : s.stored1.rxTag.read s.headRx = some (mergeErrors s.penderr s.inp.rx.status) :=
    Memory.read_write_same ..
  obtain ⟨t, ht⟩ := exec_next .rxcEvent s
  refine ⟨t, mergeErrors s.penderr s.inp.rx.status, ht, mergeErrors_fe .., mergeErrors_dor .., ?_⟩
  cases exec_effect ht with
  | notInit _ hcmd => cases hcmd
  | rxcFull hf => exact absurd (State.isFull_true.mp hf) hroom
  | rxc _ hq =>
    have hno : ¬ pauses := fun ⟨hn, hp, hle⟩ => by
      rw [← hfree] at hle
      simp [hn, hp, hle.not_gt] at hq
    exact ⟨hother, hbyte, htag, fun _ => rfl, rfl, rfl, rfl, rfl, fun hyes => absurd hyes hno,
      fun _ => ⟨rfl, rfl, rfl⟩⟩
  | rxcPause _ hn hp hq =>
    have hyes : pauses := ⟨hn, hp, hfree ▸ hq⟩
    exact ⟨hother, hbyte, htag, fun _ => rfl, rfl, rfl, rfl, rfl, fun _ => ⟨rfl, rfl, rfl⟩,
      fun hno => absurd hyes hno⟩

/-- Settles O34: on a full buffer the event has one outcome. -/
theorem rxcEventOverflowDropsNewest : Obligations.RxcEventOverflowDropsNewest := by
  intro s hroom
  have hf : s.isFull .rx = true := State.isFull_true.mpr hroom
  refine ⟨s.dropped1, mergeErrors s.penderr s.inp.rx.status, ?_, mergeErrors_fe .., mergeErrors_dor .., rfl,
    sameSlots_refl s, rfl, rfl, rfl, rfl, rfl, rfl⟩
  rw [exec_rxcEvent_eq, if_pos hf]

/-! ## `TRYRECV` -/

/-- The free space after the pop of `TRYRECV`, between the head and the advanced tail (R78, R101). -/
theorem State.free_popped1 {s : State} (hc : s.CursorsInRange .rx) (he : s.isEmpty .rx = false) :
    s.popped1.free .rx = freeBetween s.params.nRx s.headRx ((s.tailRx + 1) % s.params.nRx) :=
  have hp : PoppedFrom .rx s s.popped1 := ⟨he, rfl, rfl, rfl, rfl⟩
  State.free_eq (hp.cursors hc)

/-- Settles O35: the byte and the tag under the tail are answered, and the sender is resumed in just one of the two
cases with a byte. -/
theorem tryRecvReturnsTheOldestByte : Obligations.TryRecvReturnsTheOldestByte := by
  intro s hi hc hne l resumes
  have hfree : s.popped1.free .rx = freeBetween s.params.nRx s.headRx l :=
    State.free_popped1 hc (State.isEmpty_false.mpr hne)
  obtain ⟨t, ht⟩ := exec_next .tryRecv s
  refine ⟨t, s.poppedRsp.word, s.memRead .rx s.tailRx, s.tagRead s.tailRx, ht,
    fun _ hv => State.memRead_of_read (b := .rx) hv, fun _ hg => State.tagRead_of_read hg, Rsp.ofWord_word _, ?_⟩
  cases exec_effect ht with
  | notInit _ _ _ _ hn => exact nomatch hi.symm.trans hn
  | recvEmpty _ he => exact absurd (State.isEmpty_true.mp he) hne
  | recv _ _ hq =>
    have hno : ¬ resumes := fun ⟨hn, hp, hle⟩ => by
      rw [← hfree] at hle
      simp [hn, hp, hle.not_gt] at hq
    exact ⟨sameSlots_refl s, rfl, rfl, rfl, rfl, fun hyes => absurd hyes hno, fun _ => ⟨rfl, rfl, rfl⟩⟩
  | recvResume _ _ hn hp hq =>
    have hyes : resumes := ⟨hn, hp, hfree ▸ hq⟩
    exact ⟨sameSlots_refl s, rfl, rfl, rfl, rfl, fun _ => ⟨rfl, rfl, rfl⟩, fun hno => absurd hyes hno⟩

/-- The word of `NODATA` with the overflow flag (R62, R96). -/
theorem Rsp.word_received_ofEmpty (o : Bool) :
    (Rsp.received (.ofEmpty o) 0#8).word = if o then 0x0C00#16 else 0x0800#16 := by
  cases o <;> decide

/-- Settles O36: on an empty buffer `TRYRECV` has one outcome. -/
theorem tryRecvOnEmptyBuffer : Obligations.TryRecvOnEmptyBuffer := by
  intro s hi heq
  obtain ⟨t, ht⟩ := exec_next .tryRecv s
  refine ⟨t, ht, ?_⟩
  cases exec_effect ht with
  | notInit _ _ _ _ hn => exact nomatch hi.symm.trans hn
  | recvEmpty =>
    rw [← Rsp.word_received_ofEmpty]
    exact ⟨rfl, sameSlots_refl s, rfl, rfl, rfl, rfl, rfl, rfl⟩
  | recv _ he | recvResume _ he => exact absurd heq (State.isEmpty_false.mp he)

/-! ## The overflow flag -/

/-- A `TRYRECV` in an initialised block reports `OVF` and clears it, byte or no byte (R95, R97). -/
theorem Effect.ovf_of_tryRecv {s t : State} (h : Effect s .tryRecv t) (hi : s.inited = true) :
    (Rsp.ofWord t.out.rsp).ovf = s.ovf ∧ t.ovf = false := by
  cases h with
  | notInit _ _ _ _ hn => exact nomatch hi.symm.trans hn
  | recvEmpty | recv | recvResume => exact ⟨congrArg Rsp.ovf (Rsp.ofWord_word _), rfl⟩

/-- No other instruction clears `OVF`: `INIT` finds it 0 (R97, R171). -/
theorem Effect.ovf_of_ne_tryRecv {s t : State} {i : Instr} (h : Effect s i t) (hs : s.Inv) (hi : i ≠ .tryRecv)
    (ho : s.ovf = true) : t.ovf = true := by
  cases h with
  | init _ _ hn => exact nomatch ho.symm.trans (congrArg Regs.ovf (hs.idleBeforeInit hn))
  | recvEmpty | recv | recvResume => exact absurd rfl hi
  | rxcFull => rfl
  | _ => exact ho

/-- `SEND`, by the transmit buffer's free space (R105). -/
theorem exec_send_eq (v : Byte) (s : State) :
    exec (.send v) s = .next (s.whenInited
      (if s.isFull .tx then s.respond (Rsp.result false) else (s.sent1 v).respond Rsp.done)) := by
  obtain ⟨t, ht⟩ := exec_next (.send v) s
  rw [ht]
  cases exec_effect ht with
  | notInit _ _ _ _ hn => rw [State.whenInited_false hn]
  | sendFull _ hi hf => rw [State.whenInited_true hi, if_pos hf]
  | send _ hi hf => rw [State.whenInited_true hi, if_neg (ne_true_of_eq_false hf)]

/-- `DRE_EVENT`, by whether a byte is queued (R107, R108). -/
theorem exec_dreEvent_eq (s : State) :
    exec .dreEvent s = .next (if s.isEmpty .tx then { s with dreArmed := .disarmed } else s.wired1) := by
  obtain ⟨t, ht⟩ := exec_next .dreEvent s
  rw [ht]
  cases exec_effect ht with
  | notInit _ hc => cases hc
  | dreEmpty he => rw [if_pos he]
  | dre he => rw [if_neg (ne_true_of_eq_false he)]

/-- A choice drives the same outputs in both runs if each of its branches does. -/
theorem out_ite {c : Prop} [Decidable c] {t t' u u' : State} (h : u.out = t.out) (h' : u'.out = t'.out) :
    (if c then u else u').out = (if c then t else t').out := by
  split
  · exact h
  · exact h'

/-- An instruction other than `TRYRECV` drives the same outputs whatever `OVF` is (R97). -/
theorem exec_out_ovf {i : Instr} {s t u : State} {o : Bool} (hi : i ≠ .tryRecv) (ht : exec i s = .next t)
    (hu : exec i { s with ovf := o } = .next u) : u.out = t.out := by
  cases i with
  | tryRecv => exact absurd rfl hi
  | rxcEvent =>
    rw [exec_rxcEvent_eq] at ht hu
    cases ht; cases hu
    exact out_ite rfl (out_ite rfl rfl)
  | dreEvent =>
    rw [exec_dreEvent_eq] at ht hu
    cases ht; cases hu
    exact out_ite rfl rfl
  | send =>
    rw [exec_send_eq] at ht hu
    cases ht; cases hu
    exact out_ite (out_ite rfl rfl) rfl
  | setFmt => cases ht; cases hu; exact out_ite (out_ite rfl rfl) rfl
  | _ => cases ht; cases hu; exact out_ite rfl rfl

/-- Settles O37: `TRYRECV` inspects the flag, and every other instruction leaves it standing and unread. -/
theorem overflowFlagUntilInspected : Obligations.OverflowFlagUntilInspected :=
  ⟨fun _ _ hi h => (exec_effect h).ovf_of_tryRecv hi,
    fun _ _ _ hs h hi ho => (exec_effect h).ovf_of_ne_tryRecv hs hi ho,
    fun _ _ _ _ _ hi ht hu => exec_out_ovf hi ht hu⟩

/-! ## `HASIN` and `HASOUT` -/

theorem exec_hasIn (s : State) :
    exec .hasIn s = .next (s.whenInited (s.respond (Rsp.result (!s.isEmpty .rx)))) := rfl

theorem exec_hasOut (s : State) :
    exec .hasOut s = .next (s.whenInited (s.respond (Rsp.result (!s.isFull .tx)))) := rfl

/-- The word of a response whose result is a denial (R62). -/
theorem Rsp.word_result_not (b : Bool) : (Rsp.result (!b)).word = if b then 0x0000#16 else 0x1000#16 := by
  cases b <;> decide

/-- Settles O26: the two results are denials of equations between cursors. -/
theorem inputAndOutputQueriesAnswer : Obligations.InputAndOutputQueriesAnswer := by
  intro s hi
  refine ⟨⟨_, exec_hasIn s, ?_⟩, ⟨_, exec_hasOut s, ?_⟩⟩
  · simpa only [Rsp.word_result_not, State.isEmpty_true, State.head_rx, State.tail_rx] using
      State.whenInited_respond_only hi (Rsp.result (!s.isEmpty .rx))
  · simpa only [Rsp.word_result_not, State.isFull_true, State.head_tx, State.tail_tx, State.slots_tx] using
      State.whenInited_respond_only hi (Rsp.result (!s.isFull .tx))

/-! ## Flow control: when the two pulses are driven -/

/-- What the pulses that `t` shows say of the operation that led there from the sampled state `x`: `fc_pause` is of a
receive event, `fc_resume` of a `TRYRECV`, each only with flow control and with the flag changed; without `fc_pause` the
flag is not set (R99 to R101, R104). -/
structure FcDriven (x t : State) : Prop where
  pause : t.out.fcPause = true →
    t.out.grant = .rxcEvent ∧ x.params.fcEn = true ∧ x.fcPaused = false ∧ t.fcPaused = true
  resume : t.out.fcResume = true →
    t.out.grant = .fg ∧ decode x.inp.cmd.word = .ok .tryRecv ∧ x.params.fcEn = true ∧ x.fcPaused = true ∧
      t.fcPaused = false
  paused : t.fcPaused = true → x.fcPaused = true ∨ t.out.fcPause = true

theorem Effect.fcDriven {x u : State} {g : Grant} {i : Instr} (h : Effect (x.beginOp g) i u)
    (hev : i = .rxcEvent → g = .rxcEvent) (hfg : i = .tryRecv → g = .fg ∧ decode x.inp.cmd.word = .ok .tryRecv) :
    FcDriven x u := by
  cases h with
  | init => exact ⟨nofun, nofun, nofun⟩
  | recvResume _ _ hn hp =>
    obtain ⟨hg, hd⟩ := hfg rfl
    exact ⟨nofun, fun _ => ⟨hg, hd, hn, hp, rfl⟩, nofun⟩
  | rxcPause _ hn hp => exact ⟨fun _ => ⟨hev rfl, hn, hp, rfl⟩, nofun, fun _ => .inr rfl⟩
  | _ => exact ⟨nofun, nofun, .inl⟩

theorem Performed.fcDriven {x u : State} (h : Performed x u) : FcDriven x u := by
  cases h with
  | rxcEvent _ h => exact (exec_effect h).fcDriven (fun _ => rfl) nofun
  | dreEvent _ h => exact (exec_effect h).fcDriven nofun nofun
  | command i _ hd h =>
    exact (exec_effect h).fcDriven (fun hi => absurd hi (ne_event_of_decode hd).1) fun hi => ⟨rfl, hi ▸ hd⟩
  | illegal _ _ _ h | idle _ h => subst h; exact ⟨nofun, nofun, .inl⟩

/-- A reset drives neither pulse and clears the flag (R170, R172). -/
theorem step_fcDriven {s t : State} (h : step s = .next t) : FcDriven s.sample t := by
  obtain ⟨-, rfl⟩ | ⟨-, u, hp, rfl⟩ := step_cases h
  · exact ⟨nofun, nofun, nofun⟩
  · obtain ⟨hpause, hresume, hpaused⟩ := hp.fcDriven
    exact ⟨by simpa using hpause, by simpa using hresume, by simpa using hpaused⟩

/-- The two pulses are never driven in one step: after `PAUSE` the flag is set, after `RESUME` it is not (R104). -/
theorem FcDriven.not_both {x t : State} (h : FcDriven x t) : ¬ (t.out.fcPause = true ∧ t.out.fcResume = true) := by
  rintro ⟨hp, hr⟩
  obtain ⟨-, -, -, hset⟩ := h.pause hp
  obtain ⟨-, -, -, -, hclear⟩ := h.resume hr
  exact nomatch hset.symm.trans hclear

/-- Without flow control neither pulse is driven and the flag is not set (R99). -/
theorem FcDriven.of_absent {x t : State} (h : FcDriven x t) (hn : x.params.fcEn = false) :
    t.out.fcPause = false ∧ t.out.fcResume = false ∧ (t.fcPaused = true → x.fcPaused = true) := by
  have hpause : ¬ t.out.fcPause = true := fun hp =>
    have ⟨_, hen, _⟩ := h.pause hp
    nomatch hen.symm.trans hn
  have hresume : ¬ t.out.fcResume = true := fun hr =>
    have ⟨_, _, hen, _⟩ := h.resume hr
    nomatch hen.symm.trans hn
  exact ⟨by simpa using hpause, by simpa using hresume, fun ht => (h.paused ht).resolve_right hpause⟩

/-- A step records the flow-control events whose pulses it drives; a reset none (R104, R170). -/
theorem step_fcTrace {s t : State} (h : step s = .next t) : t.fcTrace = s.fcTrace ++ t.out.fcEntries := by
  obtain ⟨-, rfl⟩ | ⟨-, u, hp, rfl⟩ := step_cases h
  · exact (traceOf_hardReset rfl s.sample).trans (List.append_nil _).symm
  · rw [State.endOp_out]
    exact (traceOf_endOp (fun _ => rfl) _ u).trans hp.recorded.fc

/-- Outputs that do not show both pulses show one exactly if its event is what they record. -/
theorem Outputs.fc_iff_fcEntries {o : Outputs} (h : ¬ (o.fcPause = true ∧ o.fcResume = true)) :
    (o.fcPause = true ↔ o.fcEntries = [.pause]) ∧ (o.fcResume = true ↔ o.fcEntries = [.resume]) := by
  unfold Outputs.fcEntries
  cases hp : o.fcPause <;> cases hr : o.fcResume <;> simp [hp, hr] at h ⊢

/-- Settles O47: the trace gains what the pulses show, and each pulse is of one operation, which changes the flag. -/
theorem flowControlPulses : Obligations.FlowControlPulses := by
  intro s t h
  have hd := step_fcDriven h
  obtain ⟨hpause, hresume⟩ := Outputs.fc_iff_fcEntries hd.not_both
  rw [step_fcTrace h, List.append_cancel_left_eq, List.append_cancel_left_eq]
  refine ⟨hpause, hresume, fun hp => ?_, fun hr => ?_, hd.not_both, rfl, hd.of_absent⟩
  · obtain ⟨hg, -, hflag⟩ := hd.pause hp
    exact ⟨hg, hflag⟩
  · obtain ⟨hg, hw, -, hflag⟩ := hd.resume hr
    exact ⟨hg, hw, hflag⟩

/-! ## Flow control: pause and resume alternate -/

/-- One more event, if it is the one due (R102). -/
theorem State.FcTraces.snoc {s t : State} {e : FcEvent} (h : s.FcTraces) (ht : t.fcRecent = s.fcRecent ++ [e])
    (he : pausedAfter (some s.fcPaused) [e] = some t.fcPaused) : t.FcTraces := by
  rw [State.FcTraces, ht, pausedAfter_snoc, h, he]

/-- `PAUSE` is recorded while no pause is out, `RESUME` while one is, and no other instruction finds the flag set and
clears it: `INIT` finds it 0 (R102, R171). -/
theorem Effect.fcTraces {s u : State} {i : Instr} (h : Effect s i u) (hs : s.Inv) (hf : s.FcTraces) : u.FcTraces := by
  cases h with
  | init _ _ hn =>
    have hp : s.fcPaused = false := congrArg Regs.fcPaused (hs.idleBeforeInit hn)
    exact hf.trans (congrArg some hp)
  | recvResume _ _ _ hp =>
    have hrec : s.popped1.resume.fcRecent = s.fcRecent ++ [.resume] :=
      recent_cons Obs.fc? (o := .fc .resume) s.popped1.log nofun
    exact hf.snoc hrec (by rw [hp]; rfl)
  | rxcPause _ _ hp =>
    have hrec : s.stored1.pause.fcRecent = s.fcRecent ++ [.pause] :=
      recent_cons Obs.fc? (o := .fc .pause) s.stored1.log nofun
    exact hf.snoc hrec (by rw [hp]; rfl)
  | _ => exact hf

theorem Performed.fcTraces {x u : State} (h : Performed x u) (hx : x.Inv) (hf : x.FcTraces) : u.FcTraces := by
  cases h with
  | rxcEvent _ h | dreEvent _ h | command _ _ _ h => exact (exec_effect h).fcTraces (hx.beginOp _) hf
  | illegal _ _ _ h | idle _ h => subst h; exact hf

/-- A reset starts the count anew with no pause out (R170). -/
theorem step_fcTraces {s t : State} (hs : s.Inv) (hf : s.FcTraces) (h : step s = .next t) : t.FcTraces := by
  obtain ⟨-, rfl⟩ | ⟨-, u, hp, rfl⟩ := step_cases h
  · rfl
  · have hx : s.sample.Inv := hs.congr rfl rfl rfl rfl
    rw [State.FcTraces, State.fcRecent, recent_endOp (fun _ => rfl), State.endOp_fcPaused]
    exact hp.fcTraces hx hf

/-- Settles O54: every step keeps the alternation, and the marks are part of the invariant it keeps. -/
theorem flowControlAlternates : Obligations.FlowControlAlternates := by
  intro s t hs hf h
  have ht : t.Inv := stepKeepsInvariant s t hs h
  exact ⟨step_fcTraces hs hf h, fun hn => ⟨ht.runningAboveLow hn, ht.pausedBelowHigh hn⟩⟩

end Sys2Proof.Machine

/-!
SUPPORT. The statements of spec/43_transmit_path.md: `SEND` with room and without (R105, R106), the transmit event with a
byte queued and on an empty buffer (R107, R108), what arms and disarms the interrupt (R109, R115), what `WIRE` carries
(R117), and `SENDSTRING` (R111, R112).
-/

namespace Sys2Proof.Machine

/-! ## `WIRE` carries what was sent -/

/-- What `WIRE` has, and behind it what is queued, is what was sent (R117). -/
def State.SentIsWiredOrQueued (s : State) : Prop := s.sent.map some = s.wired.map some ++ s.queue .tx

theorem TxMoves.sentIsWiredOrQueued {ins outs : List Byte} {s t : State} (h : TxMoves ins outs s t)
    (hs : s.SentIsWiredOrQueued) : t.SentIsWiredOrQueued :=
  calc t.sent.map some
    _ = s.wired.map some ++ (s.queue .tx ++ ins.map some) := by rw [h.sent, List.map_append, hs, List.append_assoc]
    _ = s.wired.map some ++ (outs.map some ++ t.queue .tx) := by rw [h.queue]
    _ = t.wired.map some ++ t.queue .tx := by rw [h.wired, List.map_append, List.append_assoc]

/-- Right after a reset nothing is sent, written or queued (R170). -/
theorem State.sentIsWiredOrQueued_hardReset (x : State) : x.hardReset.SentIsWiredOrQueued := by
  rw [State.SentIsWiredOrQueued, State.queue_nil (b := .tx) rfl]
  rfl

/-- Settles O52: a reset starts the count anew, and every other step moves the bytes in order. -/
theorem wireCarriesTheSentBytes : Obligations.WireCarriesTheSentBytes := by
  intro s t hs hsent h
  obtain ⟨-, rfl⟩ | ⟨hr, -⟩ := step_cases h
  · exact State.sentIsWiredOrQueued_hardReset _
  · obtain ⟨_, _, hm⟩ := (step_conserves hs hr h).tx
    exact hm.sentIsWiredOrQueued hsent

/-! ## `SEND` -/

section
variable {s : State} {v : Byte}

theorem exec_send_of_full (hi : s.inited = true) (hf : s.isFull .tx = true) :
    exec (.send v) s = .next (s.respond (Rsp.result false)) := by
  rw [exec_send_eq, State.whenInited_true hi, if_pos hf]

theorem exec_send_of_room (hi : s.inited = true) (hf : s.isFull .tx = false) :
    exec (.send v) s = .next ((s.sent1 v).respond Rsp.done) := by
  rw [exec_send_eq, State.whenInited_true hi, if_neg (ne_true_of_eq_false hf)]

theorem exec_send_of_not_inited (hi : s.inited = false) : exec (.send v) s = .next (s.refuse .notInit) := by
  rw [exec_send_eq, State.whenInited_false hi]

end

theorem Rsp.word_done : Rsp.done.word = 0x1000#16 := Rsp.word_result true

/-- Settles O27: with room `SEND` has one outcome. -/
theorem sendQueuesAndArms : Obligations.SendQueuesAndArms := by
  intro s v hi hroom
  refine ⟨_, exec_send_of_room hi (State.isFull_false.mpr hroom), rfl, fun i hne => Memory.read_write_other _ _ hne,
    Memory.read_write_same .., fun _ => rfl, fun _ => rfl, ?_⟩
  rw [← Rsp.word_done]
  exact ⟨rfl, rfl, rfl, rfl, rfl, rfl⟩

/-- Settles O28: on a full buffer `SEND` only responds. -/
theorem sendOnFullBufferBlocks : Obligations.SendOnFullBufferBlocks := fun s _ hi hfull =>
  ⟨_, exec_send_of_full hi (State.isFull_true.mpr hfull), s.respond_only (Rsp.result false)⟩

/-! ## The transmit event -/

theorem exec_dreEvent_of_queued {s : State} (h : s.headTx ≠ s.tailTx) : exec .dreEvent s = .next s.wired1 := by
  rw [exec_dreEvent_eq, if_neg (ne_true_of_eq_false ((State.isEmpty_false (b := .tx)).mpr h))]

theorem exec_dreEvent_of_empty {s : State} (h : s.headTx = s.tailTx) :
    exec .dreEvent s = .next { s with dreArmed := .disarmed } := by
  rw [exec_dreEvent_eq, if_pos ((State.isEmpty_true (b := .tx)).mpr h)]

/-- Settles O29: with a byte queued the event has one outcome. -/
theorem dreEventWritesTheOldestByte : Obligations.DreEventWritesTheOldestByte := fun s hne =>
  ⟨_, s.memRead .tx s.tailTx, exec_dreEvent_of_queued hne, fun _ hv => State.memRead_of_read (b := .tx) hv, rfl,
    sameSlots_refl s, rfl, rfl, rfl, rfl, rfl, rfl⟩

/-- Settles O30: on an empty buffer the event only disarms. -/
theorem dreEventDisarmsOnEmptyBuffer : Obligations.DreEventDisarmsOnEmptyBuffer := fun s heq =>
  ⟨_, exec_dreEvent_of_empty heq, rfl, sameSlots_refl s, rfl, rfl, rfl, rfl, rfl, rfl⟩

/-! ## What arms and disarms the interrupt -/

theorem step_dreArmed_of_reset {s t : State} (h : step s = .next t) (hr : s.sample.inp.rst = true) :
    t.dreArmed = .disarmed := by
  rw [step_of_reset hr] at h
  cases h
  rfl

/-- Settles O32: of the effects `SEND`'s with room arms, that of the event on an empty buffer and `INIT`'s disarm. -/
theorem onlySendArms : Obligations.OnlySendArms := by
  refine ⟨fun i s t h => ?_, fun s t => step_dreArmed_of_reset⟩
  cases exec_effect h with
  | notInit _ hc _ hinit hn =>
    cases i with
    | init l b => exact absurd rfl (hinit l b)
    | send => exact (if_neg fun ⟨hi, _⟩ => nomatch hn.symm.trans hi).symm
    | dreEvent => cases hc
    | _ => rfl
  | reInit _ _ hi => exact (if_pos hi).symm
  | init _ _ hn => exact (if_neg (ne_true_of_eq_false hn)).symm
  | sendFull _ _ hf => exact (if_neg fun ⟨_, hroom⟩ => nomatch hf.symm.trans hroom).symm
  | send _ hi hf => exact (if_pos ⟨hi, hf⟩).symm
  | dreEmpty he => exact (if_pos he).symm
  | dre he => exact (if_neg (ne_true_of_eq_false he)).symm
  | _ => rfl

/-- Without a `SEND` a disarmed interrupt stays disarmed (R109). -/
theorem Effect.disarmed {s u : State} {i : Instr} (h : Effect s i u) (hi : ∀ v, i ≠ .send v)
    (hs : s.dreArmed = .disarmed) : u.dreArmed = .disarmed := by
  cases h with
  | send v => exact absurd rfl (hi v)
  | init | dreEmpty => rfl
  | _ => exact hs

theorem Performed.disarmed {x u : State} (h : Performed x u)
    (hi : x.arbitrate = .fg → ∀ v, decode x.inp.cmd.word ≠ .ok (.send v)) (hx : x.dreArmed = .disarmed) :
    u.dreArmed = .disarmed := by
  cases h with
  | rxcEvent _ h | dreEvent _ h => exact (exec_effect h).disarmed nofun hx
  | command i hg hd h => exact (exec_effect h).disarmed (fun v hv => hi hg v (hv ▸ hd)) hx
  | illegal _ _ _ h | idle _ h => subst h; exact hx

/-- A disarmed interrupt is not pending, whatever the peripheral requests (R150). -/
theorem State.drePending_of_disarmed {s : State} (h : s.dreArmed = .disarmed) : s.drePending = false := by
  simp [State.drePending, h]

/-- A granted transmit event that finds the buffer empty disarms, and ends the step (R108). -/
theorem step_of_dreEvent_empty {s : State} (hr : s.sample.inp.rst = false) (hg : s.sample.arbitrate = .dreEvent)
    (he : s.headTx = s.tailTx) :
    step s = .next (State.endOp s.sample { s.sample.beginOp .dreEvent with dreArmed := .disarmed }) := by
  have hu := exec_dreEvent_of_empty (s := s.sample.beginOp .dreEvent) he
  rw [step_of_not_reset hr, State.perform_of_dreEvent hg, hu, endOutcome]

/-- Settles O31: the event on an empty buffer serves no request but disarms, and only a `SEND` arms again. -/
theorem disarmStopsTheStorm : Obligations.DisarmStopsTheStorm := by
  refine ⟨fun s hr hg he => ?_, fun s t h hs hsend => ?_⟩
  · obtain ⟨-, hreq, -, -⟩ := s.sample.drePending_iff.mp (State.drePending_of_arbitrate hg)
    refine ⟨_, step_of_dreEvent_empty hr hg he, ?_, ?_, ?_, State.drePending_of_disarmed ?_⟩
    · rw [State.endOp_dreArmed]
    · rw [State.endOp_inp]; exact hreq
    · rw [State.endOp_out]; rfl
    · rw [State.endOp_dreArmed]
  · have ht : t.dreArmed = .disarmed := by
      obtain ⟨-, rfl⟩ | ⟨-, u, hp, rfl⟩ := step_cases h
      · rfl
      · rw [State.endOp_out, hp.grant] at hsend
        rw [State.endOp_dreArmed]
        exact hp.disarmed hsend hs
    exact ⟨ht, State.drePending_of_disarmed ht⟩

/-! ## `SENDSTRING`, one step a round (R111, log 11) -/

section
variable {fuel : Nat} {b : Byte} {bs : List Byte} {s t u : State}

theorem sendString_nil (fuel : Nat) (s : State) : sendString fuel [] s = (.returned true, s) := by
  cases fuel <;> rfl

theorem sendString_of_err (h : step (s.presentSend b) = .next t) (hr : t.out.sendReply = .err) :
    sendString (fuel + 1) (b :: bs) s = (.returned false, t) := by
  simp [sendString, h, hr]

theorem sendString_of_ok (h : step (s.presentSend b) = .next t) (hr : t.out.sendReply = .ok) :
    sendString (fuel + 1) (b :: bs) s = sendString fuel bs t := by
  simp [sendString, h, hr]

/-- On a full buffer, and while a handler event is granted, the same byte is presented again. -/
theorem sendString_of_retry (h : step (s.presentSend b) = .next t)
    (hr : t.out.sendReply = .waiting ∨ t.out.sendReply = .full) :
    sendString (fuel + 1) (b :: bs) s = sendString fuel (b :: bs) t := by
  obtain hr | hr := hr <;> simp [sendString, h, hr]

/-- The presented word is that `SEND` (R57). -/
theorem State.decode_presentSend (s : State) (b : Byte) :
    decode (s.presentSend b).sample.inp.cmd.word = .ok (.send b) :=
  decodeInvertsEncode (.send b) rfl

theorem Rsp.getLsbD_word_err (r : Rsp) : r.word.getLsbD 15 = r.err := congrArg Rsp.err (Rsp.ofWord_word r)

/-- What FG reads of a response (R62). -/
theorem State.sendReply_respond (s : State) (r : Rsp) :
    (s.respond r).out.sendReply = if r.err then .err else if r.ok then .ok else .full := by
  rw [← Rsp.getLsbD_word_err, ← Rsp.getLsbD_word_ok]
  rfl

/-- With no reset and no handler event pending the round's step performs the `SEND`. -/
theorem step_presentSend (hr : s.sample.inp.rst = false) (hp : s.sample.handlerPending = false)
    (hu : exec (.send b) ((s.presentSend b).sample.beginOp .fg) = .next u) :
    step (s.presentSend b) = .next (State.endOp (s.presentSend b).sample u) := by
  have hg : (s.presentSend b).sample.arbitrate = .fg := by
    obtain ⟨hrxc, hdre⟩ : (s.presentSend b).sample.rxcPending = false ∧ (s.presentSend b).sample.drePending = false :=
      Bool.or_eq_false_iff.mp hp
    have hv : (s.presentSend b).sample.inp.cmd.valid = true := rfl
    simp [State.arbitrate, hrxc, hdre, hv]
  have hr' : (s.presentSend b).sample.inp.rst = false := hr
  rw [step_of_not_reset hr', State.perform_of_fg hg (s.decode_presentSend b), hu, endOutcome]

/-! ### Before `INIT` -/

/-- Before `INIT` no handler event is pending (R123, R149, R150). -/
theorem State.handlerPending_of_not_inited (h : s.inited = false) : s.handlerPending = false := by
  simp [State.handlerPending, State.rxcPending, State.drePending, h]

theorem step_presentSend_of_not_inited (hi : s.inited = false) (hr : s.sample.inp.rst = false) (b : Byte) :
    step (s.presentSend b) = .next (((s.presentSend b).sample.beginOp .fg).refuse .notInit) := by
  have hu := exec_send_of_not_inited (s := (s.presentSend b).sample.beginOp .fg) (v := b) hi
  rw [step_presentSend hr (State.handlerPending_of_not_inited hi) hu, State.endOp_refuse]

/-! ### Within the free space -/

/-- An initialised block whose environment holds its inputs still and raises no request. -/
structure State.Undisturbed (s : State) : Prop extends s.Still where
  inited : s.inited = true
  rxReq : s.inp.rx.req = false
  dreReq : s.inp.dreReq = false

theorem State.Undisturbed.handlerPending (h : s.Undisturbed) : s.handlerPending = false := by
  simp [State.handlerPending, State.rxcPending, State.drePending, h.rxReq, h.dreReq]

theorem State.Undisturbed.sample_eq (h : s.Undisturbed) : s.sample = s := State.sample_of_still h.script h.rest

theorem State.Undisturbed.sample_presentSend (h : s.Undisturbed) (b : Byte) : (s.presentSend b).sample.Undisturbed := by
  rw [State.presentSend_sample, h.sample_eq]
  exact ⟨⟨h.script, h.rest, h.rst⟩, h.inited, h.rxReq, h.dreReq⟩

theorem State.Undisturbed.endOp (h : s.Undisturbed) (a : State) : (State.endOp a s).Undisturbed :=
  ⟨State.still_endOp h.toStill, by simp [h.inited], by simp [h.rxReq], by simp [h.dreReq]⟩

/-- A round with room queues its byte and leaves the block undisturbed. -/
theorem State.Undisturbed.round (h : s.Undisturbed) (hf : s.isFull .tx = false) (b : Byte) :
    ∃ t, step (s.presentSend b) = .next t ∧ t.out.sendReply = .ok ∧ t.Undisturbed ∧ PushedTo .tx b s t := by
  have hr : s.sample.inp.rst = false := by rw [h.sample_eq]; exact h.rst
  have hp : s.sample.handlerPending = false := by rw [h.sample_eq]; exact h.handlerPending
  have hx := h.sample_presentSend b
  refine ⟨_, step_presentSend hr hp (exec_send_of_room hx.inited hf), ?_, State.Undisturbed.endOp ?_ _, ?_⟩
  · rw [State.endOp_out, State.sendReply_respond]
    rfl
  · exact ⟨⟨hx.script, hx.rest, hx.rst⟩, hx.inited, hx.rxReq, hx.dreReq⟩
  · refine ⟨hf, ?_, ?_, ?_, ?_⟩ <;> simp [State.sent1, State.presentSend]

/-- So as many rounds as bytes queue them all, in order. -/
theorem State.Undisturbed.sendString (h : s.Undisturbed) (hc : s.CursorsInRange .tx) (hle : bs.length ≤ s.free .tx) :
    ∃ t, sendString bs.length bs s = (.returned true, t) ∧ t.queue .tx = s.queue .tx ++ bs.map some := by
  induction bs generalizing s with
  | nil => exact ⟨s, rfl, (List.append_nil _).symm⟩
  | cons b bs ih =>
    rw [List.length_cons] at hle ⊢
    have hroom : s.isFull .tx = false :=
      Bool.eq_false_iff.mpr fun hf => by rw [(State.free_eq_zero_iff hc).mpr hf] at hle; omega
    obtain ⟨u, hstep, hok, hu, hp⟩ := h.round hroom b
    have hfree := hp.free hc
    obtain ⟨t, ht, hq⟩ := ih hu (hp.cursors hc) (by omega)
    obtain ⟨-, -, hpush⟩ := State.queue_push hc hp.notFull hp.slots hp.tail hp.head hp.mem
    exact ⟨t, (sendString_of_ok hstep hok).trans ht, by rw [hq, hpush, List.append_assoc]; rfl⟩

/-! ### Into a full buffer that nothing drains -/

/-- A loop of frames none of which drives `rst` to 1. -/
def Rest.NeverResets (r : Rest) : Prop :=
  ∃ f fs, r = .loop f fs ∧ f.rst ≠ some true ∧ ∀ g ∈ fs, g.rst ≠ some true

theorem Rest.NeverResets.frame {r : Rest} (h : r.NeverResets) (draw : Nat) : (r.frame draw).rst ≠ some true := by
  obtain ⟨f, fs, rfl, hf, -⟩ := h
  exact hf

theorem Rest.NeverResets.next {r : Rest} (h : r.NeverResets) : r.next.NeverResets := by
  obtain ⟨f, fs, rfl, hf, hfs⟩ := h
  cases fs with
  | nil => exact ⟨f, [], rfl, hf, hfs⟩
  | cons g gs =>
    obtain ⟨hg, hgs⟩ := List.forall_mem_cons.mp hfs
    exact ⟨g, gs ++ [f], rfl, hg, by simpa [or_imp, forall_and] using ⟨hgs, hf⟩⟩

theorem Frame.apply_rst {f : Frame} {i : Inputs} (hf : f.rst ≠ some true) (hi : i.rst = false) :
    (f.apply i).rst = false := by
  cases h : f.rst with
  | none => simpa [Frame.apply, h] using hi
  | some r => simpa [Frame.apply, h] using hf

/-- The environment stays so when its next frame is taken. -/
theorem State.NeverResets.sample (h : s.NeverResets) : s.sample.NeverResets := by
  obtain ⟨hrst, hscript, hrest⟩ := h
  have hrest : s.rest.NeverResets := hrest
  cases hs : s.script with
  | nil =>
    have hf : s.nextFrame.rst ≠ some true := by simpa [State.nextFrame, hs] using hrest.frame s.draws
    have hr : s.restAfter.NeverResets := by simpa [State.restAfter, hs] using hrest.next
    exact ⟨Frame.apply_rst hf hrst, by simp [hs], hr⟩
  | cons f fs =>
    obtain ⟨hf, hfs⟩ := List.forall_mem_cons.mp (hs ▸ hscript)
    have hf : s.nextFrame.rst ≠ some true := by simpa [State.nextFrame, hs] using hf
    have hr : s.restAfter.NeverResets := by simpa [State.restAfter, hs] using hrest
    exact ⟨Frame.apply_rst hf hrst, by simpa [hs] using hfs, hr⟩

/-- An initialised block with a full transmit buffer, no level at which it drains and no reset to come. -/
structure State.Undrained (s : State) : Prop where
  inited : s.inited = true
  neverResets : s.NeverResets
  full : s.isFull .tx = true
  dreLvl : s.dreLvl = 0#2

theorem State.Undrained.endOp (h : s.Undrained) (a : State) : (State.endOp a s).Undrained where
  inited := by simp [h.inited]
  neverResets := by simpa [State.NeverResets] using h.neverResets
  full := by simpa [State.isFull_true] using h.full
  dreLvl := by simp [h.dreLvl]

theorem State.Undrained.sample_presentSend (h : s.Undrained) (b : Byte) : (s.presentSend b).sample.Undrained :=
  ⟨h.inited, h.neverResets.sample, h.full, h.dreLvl⟩

/-- `DRELVL` = 0 turns the transmit event off (R150). -/
theorem State.Undrained.drePending (h : s.Undrained) : s.drePending = false := by
  simp [State.drePending, h.dreLvl]

/-- The receive event answers no command and leaves the transmit side alone (R60, R161). -/
theorem Effect.undrained_of_rxcEvent {x u : State} (h : Effect (x.beginOp .rxcEvent) .rxcEvent u) (hx : x.Undrained) :
    u.out.sendReply = .waiting ∧ u.Undrained := by
  cases h with
  | notInit _ hc => cases hc
  | rxcFull | rxc | rxcPause => exact ⟨rfl, hx.inited, hx.neverResets, hx.full, hx.dreLvl⟩

/-- `SEND` answers that the buffer is full and changes nothing (R105). -/
theorem Effect.undrained_of_send {x u : State} {g : Grant} (h : Effect (x.beginOp g) (.send b) u) (hx : x.Undrained) :
    u.out.sendReply = .full ∧ u.Undrained := by
  cases h with
  | notInit _ _ _ _ hn => exact nomatch hx.inited.symm.trans hn
  | sendFull => exact ⟨State.sendReply_respond .., hx.inited, hx.neverResets, hx.full, hx.dreLvl⟩
  | send _ _ hf => exact nomatch hx.full.symm.trans hf

/-- A round is the receive event or a `SEND` that finds the buffer full, and the buffer stays full. -/
theorem State.Undrained.round (h : s.Undrained) (b : Byte) :
    ∃ t, step (s.presentSend b) = .next t ∧ (t.out.sendReply = .waiting ∨ t.out.sendReply = .full) ∧ t.Undrained := by
  obtain ⟨t, ht⟩ := step_next (s.presentSend b)
  have hx := h.sample_presentSend b
  have hd := s.decode_presentSend b
  refine ⟨t, ht, ?_⟩
  obtain ⟨hr, -⟩ | ⟨-, u, hp, rfl⟩ := step_cases ht
  · exact nomatch hx.neverResets.1.symm.trans hr
  rw [State.endOp_out]
  cases hp with
  | rxcEvent _ hu =>
    obtain ⟨hreply, hdrain⟩ := (exec_effect hu).undrained_of_rxcEvent hx
    exact ⟨.inl hreply, hdrain.endOp _⟩
  | command i _ hi hu =>
    obtain rfl : .send b = i := Decoded.ok.inj (hd.symm.trans hi)
    obtain ⟨hreply, hdrain⟩ := (exec_effect hu).undrained_of_send hx
    exact ⟨.inr hreply, hdrain.endOp _⟩
  | dreEvent hg => exact nomatch hx.drePending.symm.trans (State.drePending_of_arbitrate hg)
  | illegal _ _ hi => exact nomatch hd.symm.trans hi
  | idle hg =>
    have hq := State.quiescent_of_arbitrate hg
    simp [State.quiescent, State.presentSend_sample] at hq

theorem State.Undrained.sendString (h : s.Undrained) (fuel : Nat) (b : Byte) (bs : List Byte) :
    (sendString fuel (b :: bs) s).1 = .running := by
  induction fuel generalizing s with
  | zero => rfl
  | succ fuel ih =>
    obtain ⟨t, hstep, hreply, ht⟩ := h.round b
    rw [sendString_of_retry hstep hreply]
    exact ih ht

end

/-- Settles O57: the first round's `SEND` is refused. -/
theorem sendStringBeforeInitFails : Obligations.SendStringBeforeInitFails := by
  refine ⟨fun fuel b bs s hi hr => ?_, sendString_nil⟩
  have hreply : (((s.presentSend b).sample.beginOp .fg).refuse .notInit).out.sendReply = .err :=
    State.sendReply_respond ..
  obtain ⟨hregs, hslots, -⟩ := (s.presentSend b).refuse_unchanged .notInit
  exact ⟨_, sendString_of_err (step_presentSend_of_not_inited hi hr b) hreply, hregs, hslots⟩

/-- Settles O55: every round has room for its byte. -/
theorem sendStringWithinFreeSpaceReturns : Obligations.SendStringWithinFreeSpaceReturns :=
  fun _ _ hi hc hscript hrest hrst hrx hdre hle =>
    State.Undisturbed.sendString ⟨⟨hscript, hrest, hrst⟩, hi, hrx, hdre⟩ hc hle

/-- Settles O56: the first byte is presented again in every round. -/
theorem sendStringSpinsWhenUndrained : Obligations.SendStringSpinsWhenUndrained :=
  fun fuel b bs _ hi hnr hf hl => State.Undrained.sendString ⟨hi, hnr, hf, hl⟩ fuel b bs

end Sys2Proof.Machine

/-!
SUPPORT. The statements of spec/44_facade_config.md: `INIT` and its one chance (R121 to R123), the level setters (R124
to R127), `SETBAUD` and `SETFMT` (R133 to R135), and that `TXCLVL` is stored and driven only (R125, R168).
-/

namespace Sys2Proof.Machine

/-! ## Refused configuration commands -/

/-- A refusal leaves every register and slot and answers the word of its cause (R63, R69). -/
theorem State.refuse_answers (s : State) (c : RefusalCode) :
    (s.refuse c).regs = s.regs ∧ SameSlots s (s.refuse c) ∧ (s.refuse c).out = respondedOut s (Rsp.refusal c).word :=
  ⟨rfl, sameSlots_refl s, rfl⟩

theorem exec_init_of_inited {s : State} (hi : s.inited = true) (l : Level) (b : Baud) :
    exec (.init l b) s = .next (s.refuse .reInit) :=
  congrArg Host.Outcome.next (if_pos hi)

/-- Settles O39: `INIT` finds `INITED` set and is refused, and without a reset `INITED` stays set. -/
theorem reinitIsRefused : Obligations.ReinitIsRefused := by
  refine ⟨fun s l b hi => ⟨_, exec_init_of_inited hi l b, ?_⟩, fun s t h hi hr => ?_⟩
  · rw [← Rsp.word_refusal_reInit]
    exact s.refuse_answers .reInit
  · obtain ⟨-, hclear, -⟩ := onlyInitSetsAndOnlyResetClearsInited s t h
    cases ht : t.inited with
    | true => rfl
    | false => exact nomatch hr.symm.trans (hclear hi ht)

/-- Before `INIT` a well-formed command other than `INIT` has one outcome (R123). -/
theorem exec_of_not_inited {i : Instr} {s : State} (hc : i.isCommand = true) (hw : i.wellFormed = true)
    (hi : ∀ l b, i ≠ .init l b) (hn : s.inited = false) : exec i s = .next (s.refuse .notInit) := by
  obtain ⟨t, ht⟩ := exec_next i s
  have hinit : ¬ ∃ l b, i = .init l b := fun ⟨l, b, he⟩ => hi l b he
  obtain ⟨-, -, rfl⟩ | ⟨-, he, -⟩ | ⟨hiff, -⟩ := (exec_effect ht).refused_or_performed hc hw
  · exact ht
  · exact absurd he hinit
  · exact nomatch hn.symm.trans (hiff.mpr hinit)

/-- An event is granted only while one is pending (R151). -/
theorem State.handlerPending_of_arbitrate {s : State} (h : s.arbitrate = .rxcEvent ∨ s.arbitrate = .dreEvent) :
    s.handlerPending = true := by
  unfold State.handlerPending
  obtain h | h := h
  · rw [State.rxcPending_of_arbitrate h, Bool.true_or]
  · rw [State.drePending_of_arbitrate h, Bool.or_true]

/-- A step before `INIT` grants no event (R123). -/
theorem step_grant_of_not_inited {s t : State} (h : step s = .next t) (hn : s.inited = false) :
    ¬ (t.out.grant = .rxcEvent ∨ t.out.grant = .dreEvent) := by
  obtain ⟨-, rfl⟩ | ⟨-, u, hp, rfl⟩ := step_cases h
  · exact nofun
  · rw [State.endOp_out, hp.grant]
    intro hg
    have hq : s.sample.handlerPending = false := State.handlerPending_of_not_inited hn
    exact nomatch hq.symm.trans (State.handlerPending_of_arbitrate hg)

/-- Settles O40: the command has one outcome, and no event is pending that could be granted. -/
theorem commandsBeforeInitAreRefused : Obligations.CommandsBeforeInitAreRefused := by
  refine ⟨fun i s hc hw hi hn => ⟨_, exec_of_not_inited hc hw hi hn, ?_⟩,
    fun _ => State.handlerPending_of_not_inited, fun s t h hn => not_or.mp (step_grant_of_not_inited h hn)⟩
  rw [← Rsp.word_refusal_notInit]
  exact s.refuse_answers .notInit

/-! ## Commands that write registers -/

/-- `s` with other registers, all else as it is. -/
def State.withRegs (s : State) (r : Regs) : State :=
  { s with
    params := r.params, inited := r.inited
    headRx := r.headRx, tailRx := r.tailRx, headTx := r.headTx, tailTx := r.tailTx
    ovf := r.ovf, penderr := r.penderr, dreArmed := r.dreArmed, fcPaused := r.fcPaused
    rxcLvl := r.rxcLvl, txcLvl := r.txcLvl, dreLvl := r.dreLvl
    baud := r.baud, fmt := r.fmt, rxEn := r.rxEn, txEn := r.txEn }

/-- A command that writes registers and answers `OK` does that and no more. -/
theorem State.withRegs_respond_done (s : State) (r : Regs) :
    ((s.withRegs r).respond Rsp.done).regs = r ∧ SameSlots s ((s.withRegs r).respond Rsp.done) ∧
      Responded s 0x1000#16 [] ((s.withRegs r).respond Rsp.done) := by
  rw [← Rsp.word_done]
  exact ⟨rfl, sameSlots_refl s, rfl, rfl, rfl, rfl, rfl, rfl⟩

/-- The registers after `INIT lvl, baud` of a block with parameters `p` (R39, R121). -/
def Regs.afterInit (p : Params) (lvl : Level) (baud : Baud) : Regs where
  params := p
  inited := true
  headRx := 0
  tailRx := 0
  headTx := 0
  tailTx := 0
  ovf := false
  penderr := 0#2
  dreArmed := .disarmed
  fcPaused := false
  rxcLvl := p.rxcInitLvl
  txcLvl := 0#2
  dreLvl := lvl
  baud := baud
  fmt := fmt8N1
  rxEn := true
  txEn := true

theorem exec_init_of_not_inited {s : State} (hn : s.inited = false) (l : Level) (b : Baud) :
    exec (.init l b) s = .next ((s.withRegs (.afterInit s.params l b)).respond Rsp.done) :=
  congrArg Host.Outcome.next (if_neg (ne_true_of_eq_false hn))

/-- Settles O38: `INIT` writes the registers; the level at which it arms receive-complete is on by R7. -/
theorem initSetsUpTheHandle : Obligations.InitSetsUpTheHandle := by
  intro s l b hn
  obtain ⟨hregs, hslots, hrsp⟩ := s.withRegs_respond_done (.afterInit s.params l b)
  obtain ⟨-, -, hon, -⟩ := legal_parts s.params
  exact ⟨_, exec_init_of_not_inited hn l b, hslots, hrsp, hregs, rfl, hon⟩

/-- A setter in an initialised block, whose registers after it are `r` and show the configuration `c`. -/
theorem exec_setter {i : Instr} {s : State} {r : Regs} {c : RiCfg} (hi : s.inited = true)
    (he : exec i s = .next (s.whenInited ((s.withRegs r).respond Rsp.done))) (hc : (s.withRegs r).riCfg = c) :
    ∃ t, exec i s = .next t ∧ t.regs = r ∧ SameSlots s t ∧ Responded s 0x1000#16 [] t ∧ t.riCfg = c := by
  obtain ⟨hregs, hslots, hrsp⟩ := s.withRegs_respond_done r
  rw [State.whenInited_true hi] at he
  exact ⟨_, he, hregs, hslots, hrsp, hc⟩

/-- The level driven with `l` stored, by the armed state (R114). -/
theorem State.effectiveDreLvl_withRegs (s : State) (l : Level) :
    (s.withRegs { s.regs with dreLvl := l }).effectiveDreLvl = if s.dreArmed = .armed then l else 0#2 := by
  cases h : s.dreArmed <;> simp [State.effectiveDreLvl, State.withRegs, State.regs, h]

/-- Settles O41: three setters of one register each. -/
theorem levelSettersWriteOneLevel : Obligations.LevelSettersWriteOneLevel := by
  intro s l hi
  refine ⟨exec_setter hi rfl rfl, exec_setter hi rfl rfl, exec_setter hi rfl ?_⟩
  rw [← s.effectiveDreLvl_withRegs l]
  rfl

theorem exec_setFmt_of_legal {f : FmtBits} (hf : fmtLegal f = true) (s : State) :
    exec (.setFmt f) s = .next (s.whenInited ((s.withRegs { s.regs with fmt := f }).respond Rsp.done)) :=
  congrArg Host.Outcome.next (if_pos hf)

theorem exec_setFmt_of_not_legal {f : FmtBits} (hf : fmtLegal f = false) (s : State) :
    exec (.setFmt f) s = .next (s.refuse .illegal) :=
  congrArg Host.Outcome.next (if_neg (ne_true_of_eq_false hf))

/-- Settles O42: two setters of one register each, and the format that is none. -/
theorem baudAndFormatSetters : Obligations.BaudAndFormatSetters := by
  refine fun s => ⟨fun b hi => exec_setter hi rfl rfl, fun f hi hf => ?_, fun f hf => ?_⟩
  · exact exec_setter hi (exec_setFmt_of_legal (bne_iff_ne.mpr hf) s) rfl
  · refine ⟨_, exec_setFmt_of_not_legal (bne_eq_false_iff_eq.mpr hf) s, ?_⟩
    rw [← Rsp.word_refusal_illegal]
    exact s.respond_only (Rsp.refusal .illegal)

/-! ## Another transmit-complete level -/

/-- Without flow control, while running and below the high mark a pop leaves flow control as it is (R101). -/
theorem State.flowControlAfterPop_of_hold {s : State}
    (h : s.params.fcEn = false ∨ s.fcPaused = false ∨ s.free .rx < s.params.highWm) : s.flowControlAfterPop = s := by
  obtain ⟨hn, hp, hle, -⟩ | ⟨-, he⟩ := s.flowControlAfterPop_eq
  · simp [hn, hp, hle.not_gt] at h
  · exact he

theorem State.flowControlAfterPop_of_resume {s : State} (hn : s.params.fcEn = true) (hp : s.fcPaused = true)
    (hq : s.params.highWm ≤ s.free .rx) : s.flowControlAfterPop = s.resume :=
  if_pos (by simp [hn, hp, hq])

/-- `TRYRECV`, by whether a byte is queued (R95, R96). -/
theorem exec_tryRecv_eq (s : State) :
    exec .tryRecv s = .next (s.whenInited
      (if s.isEmpty .rx then ({ s with ovf := false }).respond (Rsp.received (.ofEmpty s.ovf) 0#8)
      else s.popped1.flowControlAfterPop.respond s.poppedRsp)) := by
  obtain ⟨t, ht⟩ := exec_next .tryRecv s
  rw [ht]
  cases exec_effect ht with
  | notInit _ _ _ _ hn => rw [State.whenInited_false hn]
  | recvEmpty hi he => rw [State.whenInited_true hi, if_pos he]
  | recv hi he hq =>
    rw [State.whenInited_true hi, if_neg (ne_true_of_eq_false he), State.flowControlAfterPop_of_hold hq]
  | recvResume hi he hn hp hq =>
    rw [State.whenInited_true hi, if_neg (ne_true_of_eq_false he),
      State.flowControlAfterPop_of_resume (s := s.popped1) hn hp hq]

/-- `s` with the level `l` in `TXCLVL`, all else as it is. -/
def State.withTxcLvl (s : State) (l : Level) : State := { s with txcLvl := l }

/-- `u` is `t` but for `TXCLVL`. -/
def SameButTxcLvl (t u : State) : Prop := u = t.withTxcLvl u.txcLvl

section
variable {t u : State} (h : SameButTxcLvl t u)
include h

theorem SameButTxcLvl.out : u.out = t.out := by rw [h]; rfl
theorem SameButTxcLvl.inp : u.inp = t.inp := by rw [h]; rfl
theorem SameButTxcLvl.log : u.log = t.log := by rw [h]; rfl
theorem SameButTxcLvl.regs : u.regs = { t.regs with txcLvl := u.txcLvl } := congrArg State.regs h

theorem SameButTxcLvl.sameSlots : SameSlots t u := by
  rw [h]
  exact sameSlots_refl t

theorem SameButTxcLvl.respond (r : Rsp) : SameButTxcLvl (t.respond r) (u.respond r) :=
  congrArg (State.respond · r) h

/-- The end of an operation records the driven configuration and touches no other trace (log 8). -/
theorem SameButTxcLvl.traceOf_endOp {α : Type} {f : Obs → Option α} (hf : ∀ c, f (.riCfg c) = none) (a b : State) :
    traceOf f (State.endOp b u).log = traceOf f (State.endOp a t).log := by
  rw [Machine.traceOf_endOp hf, Machine.traceOf_endOp hf, h.log]

end

/-- A choice that does not see the level is made alike in both runs. -/
theorem SameButTxcLvl.ite {c : Prop} [Decidable c] {t t' u u' : State} (h : SameButTxcLvl t u)
    (h' : SameButTxcLvl t' u') : SameButTxcLvl (if c then t else t') (if c then u else u') := by
  split
  · exact h
  · exact h'

theorem SameButTxcLvl.flowControlAfterPop (s : State) (l : Level) :
    SameButTxcLvl s.flowControlAfterPop (s.withTxcLvl l).flowControlAfterPop :=
  .ite rfl rfl

/-- No instruction looks at `TXCLVL` (R125, R168). -/
theorem exec_sameButTxcLvl {i : Instr} {s t u : State} {l : Level} (ht : exec i s = .next t)
    (hu : exec i (s.withTxcLvl l) = .next u) : SameButTxcLvl t u := by
  cases i with
  | rxcEvent =>
    rw [exec_rxcEvent_eq] at ht hu
    cases ht; cases hu
    exact .ite rfl (.ite rfl rfl)
  | dreEvent =>
    rw [exec_dreEvent_eq] at ht hu
    cases ht; cases hu
    exact .ite rfl rfl
  | send =>
    rw [exec_send_eq] at ht hu
    cases ht; cases hu
    exact .ite (.ite rfl rfl) rfl
  | tryRecv =>
    rw [exec_tryRecv_eq] at ht hu
    cases ht; cases hu
    exact .ite (.ite rfl (.respond (.flowControlAfterPop s.popped1 l) _)) rfl
  | setFmt => cases ht; cases hu; exact .ite (.ite rfl rfl) rfl
  | _ => cases ht; cases hu; exact .ite rfl rfl

/-- Nor do the arbiter and the decoder, so the same operation is performed (R151). -/
theorem Performed.sameButTxcLvl {x t u : State} {l : Level} (ht : Performed x t)
    (hu : (x.withTxcLvl l).perform = .next u) : SameButTxcLvl t u := by
  cases ht with
  | rxcEvent hg h => exact exec_sameButTxcLvl h ((State.perform_of_rxcEvent (s := x.withTxcLvl l) hg).symm.trans hu)
  | dreEvent hg h => exact exec_sameButTxcLvl h ((State.perform_of_dreEvent (s := x.withTxcLvl l) hg).symm.trans hu)
  | command i hg hd h => exact exec_sameButTxcLvl h ((State.perform_of_fg (s := x.withTxcLvl l) hg hd).symm.trans hu)
  | illegal r hg hd h =>
    subst h
    cases (State.perform_of_reject (s := x.withTxcLvl l) hg hd).symm.trans hu
    rfl
  | idle hg h =>
    subst h
    cases (State.perform_of_idle (s := x.withTxcLvl l) hg).symm.trans hu
    rfl

/-- Settles O45: a reset forgets the level, and every operation does the same whatever it is. -/
theorem transmitCompleteLevelIsInert : Obligations.TransmitCompleteLevelIsInert := by
  intro s t u l ht hu
  obtain ⟨hr, rfl⟩ | ⟨hr, v, hp, rfl⟩ := step_cases ht
  · cases (step_of_reset (s := s.withTxcLvl l) hr).symm.trans hu
    exact ⟨rfl, rfl, sameSlots_refl _, rfl, rfl, rfl, rfl⟩
  · obtain ⟨w, hw, rfl⟩ := endOutcome_next ((step_of_not_reset (s := s.withTxcLvl l) hr).symm.trans hu)
    have h : SameButTxcLvl v w := hp.sameButTxcLvl hw
    refine ⟨?_, ?_, ?_, ?_, h.traceOf_endOp (fun _ => rfl) _ _, h.traceOf_endOp (fun _ => rfl) _ _,
      h.traceOf_endOp (fun _ => rfl) _ _⟩
    · simpa using h.out
    · simpa using h.inp
    · simpa [SameSlots] using h.sameSlots
    · simpa using h.regs

end Sys2Proof.Machine

/-!
SUPPORT. The statements of spec/60_exceptions.md: what the arbiter grants (R149 to R151), that a pending event makes a
command wait (R153), that the two events commute (R152, R156), who writes what (R161), and that progress needs premises on
PERIPH (R167).
-/

namespace Sys2Proof.Machine

/-! ## The arbiter's choice -/

section
variable {s : State}

theorem State.arbitrate_of_rxc (hr : s.rxcPending = true)
    (hd : ¬ s.drePending = true ∨ s.dreLvl.toNat ≤ s.rxcLvl.toNat) : s.arbitrate = .rxcEvent :=
  if_pos (by simpa [hr] using hd)

theorem State.arbitrate_of_dre (hd : s.drePending = true)
    (hr : ¬ s.rxcPending = true ∨ s.rxcLvl.toNat < s.dreLvl.toNat) : s.arbitrate = .dreEvent :=
  (if_neg (by simpa [hd, imp_iff_not_or] using hr)).trans (if_pos hd)

theorem State.arbitrate_of_command (hr : ¬ s.rxcPending = true) (hd : ¬ s.drePending = true)
    (hv : s.inp.cmd.valid = true) : s.arbitrate = .fg := by
  simp [State.arbitrate, hr, hd, hv]

theorem State.arbitrate_of_none (hr : ¬ s.rxcPending = true) (hd : ¬ s.drePending = true)
    (hv : s.inp.cmd.valid = false) : s.arbitrate = .idle := by
  simp [State.arbitrate, hr, hd, hv]

/-- The level driven is on exactly while the interrupt is armed at a level that is on (R114). -/
theorem State.effectiveDreLvl_ne_zero_iff : s.effectiveDreLvl ≠ 0#2 ↔ s.dreArmed = .armed ∧ s.dreLvl ≠ 0#2 := by
  cases h : s.dreArmed <;> simp [State.effectiveDreLvl, h]

/-- Before `INIT` the interrupt is disarmed (R171). -/
theorem State.Inv.inited_of_armed (h : s.Inv) (ha : s.dreArmed = .armed) : s.inited = true := by
  by_contra hn
  have hd : s.dreArmed = .disarmed := congrArg Regs.dreArmed (h.idleBeforeInit (Bool.eq_false_iff.mpr hn))
  exact nomatch hd.symm.trans ha

/-- The second form of R150: a request while the level driven is on. -/
theorem State.Inv.drePending_iff (h : s.Inv) :
    s.drePending = true ↔ s.inp.dreReq = true ∧ s.effectiveDreLvl ≠ 0#2 := by
  rw [State.drePending_iff, State.effectiveDreLvl_ne_zero_iff]
  exact ⟨fun ⟨_, hd⟩ => hd, fun ⟨hq, ha, hl⟩ => ⟨h.inited_of_armed ha, hq, ha, hl⟩⟩

/-- Sampling drives inputs and leaves the registers and the slots (R10). -/
theorem State.Inv.sample (h : s.Inv) : s.sample.Inv := h.congr rfl rfl rfl rfl

end

/-- The choice sees the inputs and four registers only (R151). -/
theorem State.arbitrate_congr {s s' : State} (hinp : s.inp = s'.inp) (hi : s.inited = s'.inited)
    (hr : s.rxcLvl = s'.rxcLvl) (hd : s.dreLvl = s'.dreLvl) (ha : s.dreArmed = s'.dreArmed) :
    s.arbitrate = s'.arbitrate := by
  unfold State.arbitrate State.rxcPending State.drePending
  rw [hinp, hi, hr, hd, ha]

/-- A step shows the arbiter's choice, or nothing if it resets (R66, R172). -/
theorem step_grant {s t : State} (h : step s = .next t) :
    t.out.grant = if s.sample.inp.rst then .idle else s.sample.arbitrate := by
  obtain ⟨hr, rfl⟩ | ⟨hr, u, hp, rfl⟩ := step_cases h
  · rw [if_pos hr]
    rfl
  · rw [State.endOp_out, hp.grant, hr]
    rfl

theorem step_grant_of_not_reset {s t : State} (h : step s = .next t) (hr : s.sample.inp.rst = false) :
    t.out.grant = s.sample.arbitrate := by
  rw [step_grant h, hr]
  rfl

/-- Settles O12: each condition of R151 decides the choice, and the step runs what is chosen. -/
theorem arbiterGrantsByLevel : Obligations.ArbiterGrantsByLevel := by
  refine ⟨fun s t h hr => ?_, fun s t s' t' h h' hinp hi hrxc hdre harm => ?_⟩
  · intro rxc dre
    have hrxc : s.sample.rxcPending = true ↔ rxc := s.sample.rxcPending_iff
    have hdre : s.sample.drePending = true ↔ dre := s.sample.drePending_iff
    rw [← hrxc, ← hdre, step_grant_of_not_reset h hr, ← h]
    obtain ⟨hrunRxc, hrunDre, hrunIdle⟩ := stepRunsTheGrantedEvent s hr
    refine ⟨fun hs => ?_, fun ⟨hx, hd⟩ => ?_, fun ⟨hd, hx⟩ => ?_, fun ⟨hx, hd, hv⟩ => ?_, fun ⟨hx, hd, hv⟩ => ?_⟩
    · exact hs.sample.drePending_iff
    · have hg := State.arbitrate_of_rxc hx hd
      exact ⟨hg, (hrunRxc hg).symm⟩
    · have hg := State.arbitrate_of_dre hd hx
      exact ⟨hg, (hrunDre hg).symm⟩
    · have hg := State.arbitrate_of_command hx hd hv
      obtain ⟨u, hu, hill, -⟩ := refusalCodesFollowTheCause s hr hg
      obtain rfl : u = t := Host.Outcome.next.inj (hu.symm.trans h)
      exact ⟨hg, fun i hi => (stepRunsTheDecodedCommand s i hr hg hi).symm, hill⟩
    · have hg := State.arbitrate_of_none hx hd hv
      obtain ⟨u, hu, hregs, hslots, -, hout⟩ := hrunIdle hg
      obtain rfl : u = t := Host.Outcome.next.inj (hu.symm.trans h)
      exact ⟨hg, by rw [hout]; rfl, hregs, hslots⟩
  · rw [step_grant h, step_grant h', hinp]
    exact congrArg (ite _ _) (State.arbitrate_congr (s := s.sample) (s' := s'.sample) hinp hi hrxc hdre harm)

/-! ## A pending event makes a command wait -/

/-- A pending event is granted ahead of FG (R151). -/
theorem State.arbitrate_of_handlerPending {s : State} (hp : s.handlerPending = true) :
    s.arbitrate = .rxcEvent ∨ s.arbitrate = .dreEvent := by
  obtain ⟨hg, -⟩ | ⟨hg, -⟩ | ⟨-, hr, hd, -⟩ | ⟨-, hr, hd, -⟩ := s.arbitrate_cases
  · exact .inl hg
  · exact .inr hg
  all_goals simp [State.handlerPending, hr, hd] at hp

/-- So a step without reset performs an event, whatever is presented (R153). -/
theorem step_of_handlerPending {s : State} (hr : s.sample.inp.rst = false) (hp : s.sample.handlerPending = true) :
    ∃ i g u, step s = .next (State.endOp s.sample u) ∧ i.isCommand = false ∧ g ≠ .fg ∧ g ≠ .idle ∧
      Effect (s.sample.beginOp g) i u := by
  obtain ⟨t, h⟩ := step_next s
  obtain ⟨ht, -⟩ | ⟨-, u, hu, rfl⟩ := step_cases h
  · exact nomatch hr.symm.trans ht
  cases hu with
  | rxcEvent _ hu => exact ⟨.rxcEvent, .rxcEvent, u, h, rfl, nofun, nofun, exec_effect hu⟩
  | dreEvent _ hu => exact ⟨.dreEvent, .dreEvent, u, h, rfl, nofun, nofun, exec_effect hu⟩
  | command _ hg | illegal _ hg | idle hg => simpa [hg] using State.arbitrate_of_handlerPending hp

/-- A handler event leaves the command port as it is driven and answers nothing (R155, R157). -/
theorem Effect.unanswered {x u : State} {g : Grant} {i : Instr} (h : Effect (x.beginOp g) i u)
    (hc : i.isCommand = false) :
    u.inp.cmd = x.inp.cmd ∧ u.out.cmdReady = false ∧ u.out.rspValid = false := by
  cases h with
  | notInit _ hcmd => exact nomatch hc.symm.trans hcmd
  | rxcFull | rxc | rxcPause | dreEmpty | dre => exact ⟨rfl, rfl, rfl⟩
  | _ => cases hc

/-- A command that FG keeps presented is the one that is sampled (R60). -/
theorem State.sample_cmd {s : State} (hk : s.nextFrame.keepsCommand s.inp) (hv : s.inp.cmd.valid = true) :
    s.sample.inp.cmd = s.inp.cmd := by
  rw [State.sample_inp]
  cases hf : s.nextFrame.cmd with
  | none => simp [Frame.apply, hf]
  | some p => simpa [Frame.apply, hf] using hk hv p hf

/-- Settles O14: the step performs an event, which leaves the command. -/
theorem handlersPreemptTheForeground : Obligations.HandlersPreemptTheForeground := by
  intro s hr hp
  obtain ⟨i, g, u, hstep, hc, hfg, -, heff⟩ := step_of_handlerPending hr hp
  obtain ⟨hcmd, hready, hvalid⟩ := heff.unanswered hc
  have hgrant : u.out.grant = g := heff.grant
  refine ⟨_, hstep, ?_⟩
  rw [State.endOp_inp, State.endOp_out, hgrant]
  exact ⟨hcmd, hready, hvalid, hfg, fun hk hv => hcmd.trans (State.sample_cmd hk hv)⟩

/-! ## The two events commute -/

/-- What the block holds and is driven: the registers, the slots and the inputs; not the outputs, the environment or the
log. -/
def State.held (s : State) : Regs × Memory 8 × Memory 2 × Memory 8 × Inputs :=
  (s.regs, s.rxMem, s.rxTag, s.txMem, s.inp)

/-- `s` with what the receive event writes as it is in `a` (R156; outputs and log besides). -/
def State.withRxh (s a : State) : State :=
  { s with
    headRx := a.headRx, rxMem := a.rxMem, rxTag := a.rxTag, penderr := a.penderr, ovf := a.ovf, fcPaused := a.fcPaused
    inp := { s.inp with rx := a.inp.rx }
    out := a.out, log := a.log }

/-- `s` with what the transmit event writes as it is in `c` (R156; outputs and log besides). -/
def State.withTxh (s c : State) : State :=
  { s with
    tailTx := c.tailTx, dreArmed := c.dreArmed
    inp := { s.inp with dreReq := c.inp.dreReq }
    out := c.out, log := c.log }

section
variable {s a b c d : State}

theorem Effect.eq_withRxh (h : Effect s .rxcEvent a) : a = s.withRxh a := by
  cases h with
  | notInit _ hc => cases hc
  | rxcFull | rxc | rxcPause => rfl

theorem Effect.eq_withTxh (h : Effect s .dreEvent c) : c = s.withTxh c := by
  cases h with
  | notInit _ hc => cases hc
  | dreEmpty | dre => rfl

/-- A choice made alike in two runs keeps what they agree on, `f` being what the second run has besides. -/
theorem held_ite (f : State → State) {p : Prop} [Decidable p] {t t' u u' : State} (h : u.held = (f t).held)
    (h' : u'.held = (f t').held) : (if p then u else u').held = (f (if p then t else t')).held := by
  split
  · exact h
  · exact h'

/-- The receive event reads nothing that the transmit event writes. -/
theorem held_rxcEvent_withTxh (ha : exec .rxcEvent s = .next a) (hd : exec .rxcEvent (s.withTxh c) = .next d) :
    d.held = (a.withTxh c).held := by
  rw [exec_rxcEvent_eq] at ha hd
  cases ha; cases hd
  exact held_ite (State.withTxh · c) rfl (held_ite (State.withTxh · c) rfl rfl)

/-- The transmit event reads nothing that the receive event writes. -/
theorem held_dreEvent_withRxh (hc : exec .dreEvent s = .next c) (hb : exec .dreEvent (s.withRxh a) = .next b) :
    b.held = (c.withRxh a).held := by
  rw [exec_dreEvent_eq] at hc hb
  cases hc; cases hb
  exact held_ite (State.withRxh · a) rfl rfl

end

/-- Settles O13: the events write disjoint state and neither reads what the other writes (R156). -/
theorem handlerEventsCommute : Obligations.HandlerEventsCommute := by
  intro s a b c d ha hb hc hd
  have hrx : a = s.withRxh a := (exec_effect ha).eq_withRxh
  have htx : c = s.withTxh c := (exec_effect hc).eq_withTxh
  rw [hrx] at hb
  rw [htx] at hd
  have hheld : b.held = d.held :=
    calc b.held
      _ = (c.withRxh a).held := held_dreEvent_withRxh hc hb
      _ = ((s.withTxh c).withRxh a).held := by rw [← htx]
      _ = ((s.withRxh a).withTxh c).held := rfl
      _ = (a.withTxh c).held := by rw [← hrx]
      _ = d.held := (held_rxcEvent_withTxh ha hd).symm
  simp only [State.held, Prod.mk.injEq] at hheld
  obtain ⟨hregs, hbytes, htags, htxMem, hinp⟩ := hheld
  exact ⟨hregs, ⟨fun i => by rw [hbytes], fun i => by rw [htags], fun i => by rw [htxMem]⟩, hinp⟩

/-! ## Who writes what -/

/-- In `s` the instruction `i` is an `INIT` that is performed (R121, R122). -/
def Initialises (s : State) (i : Instr) : Prop := s.inited = false ∧ ∃ l b, i = .init l b

/-- The control registers, the last row of the table of R161. -/
def State.control (s : State) : Level × Level × Level × Baud × FmtBits × Bool × Bool × Bool :=
  (s.rxcLvl, s.txcLvl, s.dreLvl, s.baud, s.fmt, s.rxEn, s.txEn, s.inited)

section
variable {s u : State} {i : Instr} (h : Effect s i u)
include h

theorem Effect.headRx_penderr_writers : (u.headRx = s.headRx ∧ u.penderr = s.penderr) ∨ i = .rxcEvent ∨
    (Initialises s i ∧ u.headRx = 0 ∧ u.penderr = 0#2) := by
  cases h with
  | rxcFull | rxc | rxcPause => exact .inr (.inl rfl)
  | init l b hn => exact .inr (.inr ⟨⟨hn, l, b, rfl⟩, rfl, rfl⟩)
  | _ => exact .inl ⟨rfl, rfl⟩

theorem Effect.rxSlots_writer : (u.rxMem = s.rxMem ∧ u.rxTag = s.rxTag) ∨ i = .rxcEvent := by
  cases h with
  | rxcFull | rxc | rxcPause => exact .inr rfl
  | _ => exact .inl ⟨rfl, rfl⟩

theorem Effect.tailRx_writers : u.tailRx = s.tailRx ∨ i = .tryRecv ∨ (Initialises s i ∧ u.tailRx = 0) := by
  cases h with
  | recv | recvResume => exact .inr (.inl rfl)
  | init l b hn => exact .inr (.inr ⟨⟨hn, l, b, rfl⟩, rfl⟩)
  | _ => exact .inl rfl

theorem Effect.headTx_writers : u.headTx = s.headTx ∨ (∃ v, i = .send v) ∨ (Initialises s i ∧ u.headTx = 0) := by
  cases h with
  | send v => exact .inr (.inl ⟨v, rfl⟩)
  | init l b hn => exact .inr (.inr ⟨⟨hn, l, b, rfl⟩, rfl⟩)
  | _ => exact .inl rfl

theorem Effect.txMem_writer : u.txMem = s.txMem ∨ ∃ v, i = .send v := by
  cases h with
  | send v => exact .inr ⟨v, rfl⟩
  | _ => exact .inl rfl

theorem Effect.tailTx_writers : u.tailTx = s.tailTx ∨ i = .dreEvent ∨ (Initialises s i ∧ u.tailTx = 0) := by
  cases h with
  | dre => exact .inr (.inl rfl)
  | init l b hn => exact .inr (.inr ⟨⟨hn, l, b, rfl⟩, rfl⟩)
  | _ => exact .inl rfl

theorem Effect.ovf_writers : u.ovf = s.ovf ∨ (u.ovf = true ∧ i = .rxcEvent) ∨
    (u.ovf = false ∧ (i = .tryRecv ∨ Initialises s i)) := by
  cases h with
  | rxcFull => exact .inr (.inl ⟨rfl, rfl⟩)
  | recvEmpty | recv | recvResume => exact .inr (.inr ⟨rfl, .inl rfl⟩)
  | init l b hn => exact .inr (.inr ⟨rfl, .inr ⟨hn, l, b, rfl⟩⟩)
  | _ => exact .inl rfl

theorem Effect.fcPaused_writers : u.fcPaused = s.fcPaused ∨ (u.fcPaused = true ∧ i = .rxcEvent) ∨
    (u.fcPaused = false ∧ (i = .tryRecv ∨ Initialises s i)) := by
  cases h with
  | rxcPause => exact .inr (.inl ⟨rfl, rfl⟩)
  | recvResume => exact .inr (.inr ⟨rfl, .inl rfl⟩)
  | init l b hn => exact .inr (.inr ⟨rfl, .inr ⟨hn, l, b, rfl⟩⟩)
  | _ => exact .inl rfl

theorem Effect.dreArmed_writers : u.dreArmed = s.dreArmed ∨ (u.dreArmed = .armed ∧ ∃ v, i = .send v) ∨
    (u.dreArmed = .disarmed ∧ (i = .dreEvent ∨ Initialises s i)) := by
  cases h with
  | send v => exact .inr (.inl ⟨rfl, v, rfl⟩)
  | dreEmpty => exact .inr (.inr ⟨rfl, .inl rfl⟩)
  | init l b hn => exact .inr (.inr ⟨rfl, .inr ⟨hn, l, b, rfl⟩⟩)
  | _ => exact .inl rfl

theorem Effect.control_writers : u.control = s.control ∨ i.isCommand = true := by
  cases h with
  | notInit _ hc => exact .inr hc
  | rxcFull | rxc | rxcPause | dreEmpty | dre => exact .inl rfl
  | _ => exact .inr rfl

theorem Effect.params : u.params = s.params := by
  cases h <;> rfl

end

/-- A flag that one side sets and another clears: who changed it, by the value it has now. -/
theorem flag_writers {α : Type} {old new on off : α} {Sets Clears : Prop} (hne : on ≠ off)
    (h : new = old ∨ (new = on ∧ Sets) ∨ (new = off ∧ Clears)) :
    (old = off → new = on → Sets) ∧ (old = on → new = off → Clears) := by
  obtain rfl | ⟨rfl, hs⟩ | ⟨rfl, hc⟩ := h
  · exact ⟨fun ho hn => absurd (hn.symm.trans ho) hne, fun hn ho => absurd (hn.symm.trans ho) hne⟩
  · exact ⟨fun _ _ => hs, fun _ ho => absurd ho hne⟩
  · exact ⟨fun _ hn => absurd hn.symm hne, fun _ _ => hc⟩

/-- Settles O43: row by row of the table of R161; the cursors are 0 before `INIT`. -/
theorem singleWriterDiscipline : Obligations.SingleWriterDiscipline := by
  intro i s t hst inits
  have h := exec_effect hst
  obtain ⟨hovfSet, hovfClear⟩ := flag_writers (by decide) h.ovf_writers
  obtain ⟨hfcSet, hfcClear⟩ := flag_writers (by decide) h.fcPaused_writers
  obtain ⟨harm, hdisarm⟩ := flag_writers (by decide) h.dreArmed_writers
  refine ⟨fun hne => ?_, fun ⟨k, hk⟩ => ?_, fun hne => ?_, h.tailRx_writers.resolve_left, hovfSet, hovfClear, hfcSet,
    hfcClear, h.headTx_writers.resolve_left, fun ⟨k, hk⟩ => ?_, h.tailTx_writers.resolve_left, harm, hdisarm,
    h.control_writers.resolve_left, h.params, fun hs => ?_⟩
  · exact (h.headRx_penderr_writers.resolve_left fun ⟨he, _⟩ => hne he).imp_right fun ⟨hi, h0, _⟩ => ⟨hi, h0⟩
  · refine h.rxSlots_writer.resolve_left fun ⟨hb, hg⟩ => ?_
    simp [hb, hg] at hk
  · exact (h.headRx_penderr_writers.resolve_left fun ⟨_, he⟩ => hne he).imp_right fun ⟨hi, _, h0⟩ => ⟨hi, h0⟩
  · exact h.txMem_writer.resolve_left fun hm => hk (by rw [hm])
  · have hidle (hi : Initialises s i) : s.Idle := hs.idleBeforeInit hi.1
    refine ⟨fun hne => ?_, fun hne => ?_⟩
    · refine (h.tailRx_writers.resolve_left hne).resolve_right fun ⟨hi, h0⟩ => hne ?_
      exact h0.trans (congrArg Regs.tailRx (hidle hi)).symm
    · refine (h.headTx_writers.resolve_left hne).resolve_right fun ⟨hi, h0⟩ => hne ?_
      exact h0.trans (congrArg Regs.headTx (hidle hi)).symm

/-! ## Progress needs premises on PERIPH -/

/-- A run of steps each of which keeps `P` and `f`, and after each of which `Q` holds. -/
theorem runSteps_of_step {α : Type} {f : State → α} {P Q : State → Prop}
    (hstep : ∀ s, P s → ∃ t, step s = .next t ∧ P t ∧ f t = f s ∧ Q t) (n : Nat) {s : State} (hs : P s) :
    ∃ t, runSteps n s = .next t ∧ f t = f s ∧ (0 < n → Q t) := by
  induction n generalizing s with
  | zero => exact ⟨s, rfl, rfl, nofun⟩
  | succ n ih =>
    obtain ⟨t, ht, hpt, hft, hqt⟩ := hstep s hs
    obtain ⟨v, hv, hfv, hqv⟩ := ih hpt
    refine ⟨v, by simpa [runSteps, ht] using hv, hfv.trans hft, fun _ => ?_⟩
    cases n with
    | zero =>
      obtain rfl : t = v := Host.Outcome.next.inj hv
      exact hqt
    | succ n => exact hqv n.succ_pos

/-- The environment repeats the frame `f` for ever (log 2). -/
structure State.Repeats (s : State) (f : Frame) : Prop where
  script : s.script = []
  rest : s.rest = .loop f []

section
variable {s t u : State} {f : Frame}

theorem State.Repeats.sample_inp (hs : s.Repeats f) : s.sample.inp = f.apply s.inp := by
  rw [State.sample_of_loop hs.script hs.rest]

theorem State.Repeats.sample (hs : s.Repeats f) : s.sample.Repeats f := by
  rw [State.sample_of_loop hs.script hs.rest]
  exact ⟨hs.script, hs.rest⟩

/-- No instruction touches the environment (log 2). -/
theorem Effect.repeats {i : Instr} (h : Effect s i u) (hs : s.Repeats f) : u.Repeats f := by
  obtain ⟨hscript, hrest⟩ := hs
  cases h <;> exact ⟨hscript, hrest⟩

theorem Performed.repeats (h : Performed s u) (hs : s.Repeats f) : u.Repeats f := by
  have hb (g : Grant) : (s.beginOp g).Repeats f := ⟨hs.script, hs.rest⟩
  cases h with
  | rxcEvent _ h | dreEvent _ h | command _ _ _ h => exact (exec_effect h).repeats (hb _)
  | illegal _ _ _ h | idle _ h => subst h; exact ⟨hs.script, hs.rest⟩

theorem step_repeats (hs : s.Repeats f) (h : step s = .next t) : t.Repeats f := by
  obtain ⟨-, rfl⟩ | ⟨-, u, hp, rfl⟩ := step_cases h
  · exact ⟨hs.sample.script, hs.sample.rest⟩
  · have hu := hp.repeats hs.sample
    exact ⟨by simp [hu.script], by simp [hu.rest]⟩

/-- A step that drives no response adds no entry to `RSP` (R11). -/
theorem rspTrace_of_unanswered (h : step s = .next t) (hr : s.sample.inp.rst = false)
    (hv : t.out.rspValid = false) : t.rspTrace = s.rspTrace := by
  obtain ⟨-, hrsp, -⟩ := (tracesRecordTheOutputs s t h).2 hr
  simpa [hv] using hrsp

/-- A step that writes nothing adds no entry to `WIRE` (R11). -/
theorem wireTrace_of_not_written (h : step s = .next t) (hr : s.sample.inp.rst = false)
    (hw : t.out.riTxWr = false) : t.wireTrace = s.wireTrace := by
  obtain ⟨-, -, hwire, -⟩ := (tracesRecordTheOutputs s t h).2 hr
  simpa [hw] using hwire

end

/-- An initialised block that services receive-complete, in an environment that repeats `f` (R149). -/
structure State.Receiving (s : State) (f : Frame) : Prop extends s.Repeats f where
  inited : s.inited = true
  rxcLvl : s.rxcLvl ≠ 0#2

/-- Where the frame brings a byte in every step, every step is an event's: FG is not granted and nothing is answered. -/
theorem step_of_receiving {s : State} {f : Frame} (hs : s.Receiving f) (hrst : f.rst = some false) {p : RxPort}
    (hrx : f.rx = some p) (hreq : p.req = true) :
    ∃ t, step s = .next t ∧ t.Receiving f ∧ t.rspTrace = s.rspTrace ∧ (t.out.grant ≠ .fg ∧ t.out.grant ≠ .idle) := by
  have hr : s.sample.inp.rst = false := by simp [hs.sample_inp, Frame.apply, hrst]
  have hq : s.sample.inp.rx.req = true := by simp [hs.sample_inp, Frame.apply, hrx, hreq]
  have hp : s.sample.handlerPending = true := by
    rw [State.handlerPending, s.sample.rxcPending_iff.mpr ⟨hs.inited, hq, hs.rxcLvl⟩, Bool.true_or]
  obtain ⟨i, g, u, h, hc, hfg, hidle, heff⟩ := step_of_handlerPending hr hp
  have hcontrol : u.control = s.control := heff.control_writers.resolve_right (by simp [hc])
  simp only [State.control, Prod.mk.injEq] at hcontrol
  obtain ⟨hlvl, -, -, -, -, -, -, hinited⟩ := hcontrol
  obtain ⟨-, -, hvalid⟩ := heff.unanswered hc
  have hgrant : u.out.grant = g := heff.grant
  refine ⟨_, h, ⟨step_repeats hs.toRepeats h, ?_, ?_⟩, rspTrace_of_unanswered h hr ?_, ?_⟩
  · rw [State.endOp_inited, hinited, hs.inited]
  · rw [State.endOp_rxcLvl, hlvl]
    exact hs.rxcLvl
  · rw [State.endOp_out, hvalid]
  · rw [State.endOp_out, hgrant]
    exact ⟨hfg, hidle⟩

/-- Where the frame says in every step that the transmitter is not ready, nothing is written (R37, R150). -/
theorem step_of_not_ready {s : State} {f : Frame} (hs : s.Repeats f) (hrst : f.rst = some false)
    (hdre : f.dreReq = some false) :
    ∃ t, step s = .next t ∧ t.Repeats f ∧ t.wireTrace = s.wireTrace ∧ t.out.riTxWr = false := by
  obtain ⟨t, h⟩ := step_next s
  have hr : s.sample.inp.rst = false := by simp [hs.sample_inp, Frame.apply, hrst]
  have hq : s.sample.inp.dreReq = false := by simp [hs.sample_inp, Frame.apply, hdre]
  have hnw : t.out.riTxWr = false := Bool.eq_false_iff.mpr fun hw => by
    obtain ⟨-, hwr, -⟩ := dataRegisterAccessedExactlyByEvents s t h hr
    obtain ⟨hg, -⟩ := hwr.mp hw
    have hp := State.drePending_of_arbitrate ((step_grant_of_not_reset h hr).symm.trans hg)
    obtain ⟨-, hready, -⟩ := s.sample.drePending_iff.mp hp
    exact nomatch hq.symm.trans hready
  exact ⟨t, h, step_repeats hs h, wireTrace_of_not_written h hr hnw, hnw⟩

/-- With no handler event pending a presented command is performed and answered (R153). -/
theorem step_of_presented {s : State} (hr : s.sample.inp.rst = false) (hp : s.sample.handlerPending = false)
    (hv : s.sample.inp.cmd.valid = true) :
    ∃ t, step s = .next t ∧ t.out.grant = .fg ∧ t.out.cmdReady = true ∧
      t.rspTrace = s.rspTrace ++ [(s.sample.inp.cmd.word, t.out.rsp)] := by
  obtain ⟨t, h⟩ := step_next s
  obtain ⟨hrxc, hdre⟩ := Bool.or_eq_false_iff.mp hp
  have hg : t.out.grant = .fg := by
    rw [step_grant_of_not_reset h hr]
    exact State.arbitrate_of_command (by simp [hrxc]) (by simp [hdre]) hv
  obtain ⟨hvalid, hready, -⟩ := step_rspDriven h
  obtain ⟨-, hrsp, -⟩ := (tracesRecordTheOutputs s t h).2 hr
  exact ⟨t, h, hg, hready.mpr hg, by simpa [hvalid.mpr hg] using hrsp⟩

/-- Settles O60: two environments that repeat one frame, and a step in which nothing preempts FG. -/
theorem progressNeedsPeriphPremises : Obligations.ProgressNeedsPeriphPremises := by
  refine ⟨fun n s c d fe dor r hi hl hscript hrest => ?_, fun n s c x hscript hrest => ?_, fun s => step_of_presented⟩
  · have hs : s.Receiving ⟨some false, c, some ⟨true, d, fe, dor⟩, r⟩ := ⟨⟨hscript, hrest⟩, hi, hl⟩
    exact runSteps_of_step (fun _ hv => step_of_receiving hv rfl rfl rfl) n hs
  · have hs : s.Repeats ⟨some false, c, x, some false⟩ := ⟨hscript, hrest⟩
    obtain ⟨t, ht, hwire, -⟩ := runSteps_of_step (fun _ hv => step_of_not_ready hv rfl rfl) n hs
    exact ⟨t, ht, hwire⟩

end Sys2Proof.Machine

/-!
SUPPORT. The statements of spec/70_reset_and_hazards.md: what a handler event does to the answers of the queries (R187),
the state right after a reset (R170), the idle steps that follow it (R171, R172), and `ri_tx_data` up to the first write
(R172).
-/

namespace Sys2Proof.Machine

/-! ## Answers go stale only in the safe direction -/

section
variable {s t u : State} {b : Buf} {i : Instr}

/-- A buffer with room has room while it holds no more bytes than before (R77). -/
theorem State.isFull_eq_false_of_count_le (hs : s.CursorsInRange b) (ht : t.CursorsInRange b)
    (hn : t.slots b = s.slots b) (hle : t.count b ≤ s.count b) (hf : s.isFull b = false) : t.isFull b = false := by
  rw [← Bool.not_eq_true, State.isFull_iff_count hs] at hf
  rw [← Bool.not_eq_true, State.isFull_iff_count ht, hn]
  have hlt := s.count_lt b
  omega

/-- A buffer with a byte queued has one while it holds no fewer bytes than before (R76). -/
theorem State.isEmpty_eq_false_of_le_count (hs : s.CursorsInRange b) (ht : t.CursorsInRange b)
    (hle : s.count b ≤ t.count b) (he : s.isEmpty b = false) : t.isEmpty b = false := by
  rw [← Bool.not_eq_true, State.isEmpty_iff_count hs] at he
  rw [← Bool.not_eq_true, State.isEmpty_iff_count ht]
  omega

/-- The fewer bytes a buffer holds, the more of its space is free (R78). -/
theorem State.free_le_of_count_le (hn : t.slots b = s.slots b) (hle : t.count b ≤ s.count b) : s.free b ≤ t.free b := by
  rw [State.free, State.free, hn]
  exact Nat.sub_le_sub_left hle _

/-- A handler event pushes to the receive buffer or leaves it alone (R161). -/
theorem Effect.le_count_rx_of_event (h : Effect s i u) (hi : i.isCommand = false) (hs : s.CursorsInRange .rx) :
    u.CursorsInRange .rx ∧ s.count .rx ≤ u.count .rx := by
  cases h with
  | notInit _ hc => exact nomatch hi.symm.trans hc
  | rxc hf | rxcPause hf =>
    have hp : PushedTo .rx s.inp.rx.data s s.stored1 := ⟨hf, rfl, rfl, rfl, rfl⟩
    exact ⟨hp.cursors hs, Nat.le.intro (hp.count hs).symm⟩
  | rxcFull | dreEmpty | dre => exact ⟨hs, Nat.le_refl _⟩
  | _ => cases hi

/-- A handler event pops from the transmit buffer or leaves it alone (R161). -/
theorem Effect.count_tx_le_of_event (h : Effect s i u) (hi : i.isCommand = false) (hs : s.CursorsInRange .tx) :
    u.CursorsInRange .tx ∧ u.count .tx ≤ s.count .tx := by
  cases h with
  | notInit _ hc => exact nomatch hi.symm.trans hc
  | dre he =>
    have hp : PoppedFrom .tx s s.wired1 := ⟨he, rfl, rfl, rfl, rfl⟩
    exact ⟨hp.cursors hs, Nat.le.intro (hp.count hs)⟩
  | rxcFull | rxc | rxcPause | dreEmpty => exact ⟨hs, Nat.le_refl _⟩
  | _ => cases hi

end

/-- Settles O44: an event lets the receive count only grow and the transmit count only shrink. -/
theorem answersStaySafeAcrossEvents : Obligations.AnswersStaySafeAcrossEvents := by
  intro i s t hi hrx htx hst
  have h := exec_effect hst
  have hrxSlots : t.slots .rx = s.slots .rx := congrArg (·.nRx) h.params
  have htxSlots : t.slots .tx = s.slots .tx := congrArg (·.nTx) h.params
  obtain ⟨hrx', hgrown⟩ := h.le_count_rx_of_event hi hrx
  obtain ⟨htx', hshrunk⟩ := h.count_tx_le_of_event hi htx
  exact ⟨State.isFull_eq_false_of_count_le htx htx' htxSlots hshrunk, State.isEmpty_eq_false_of_le_count hrx hrx' hgrown,
    State.free_le_of_count_le hrxSlots.symm hgrown, State.free_le_of_count_le htxSlots hshrunk⟩

/-! ## `ri_tx_data` up to the first write -/

section
variable {x s t u : State}

/-- An instruction that writes nothing leaves `ri_tx_data` as the step before determines it (R172, log 7). -/
theorem Effect.riTxData_of_no_write {g : Grant} {i : Instr} (h : Effect (x.beginOp g) i u)
    (hw : u.out.riTxWr = false) : u.out.riTxData = x.out.heldTxData := by
  cases h with
  | dre => cases hw
  | _ => rfl

theorem Performed.riTxData_of_no_write (h : Performed x u) (hw : u.out.riTxWr = false) :
    u.out.riTxData = x.out.heldTxData := by
  cases h with
  | rxcEvent _ h | dreEvent _ h | command _ _ _ h => exact (exec_effect h).riTxData_of_no_write hw
  | illegal _ _ _ h | idle _ h => subst h; rfl

theorem step_riTxData_of_no_write (h : step s = .next t) (hr : s.sample.inp.rst = false)
    (hw : t.out.riTxWr = false) : t.out.riTxData = s.out.heldTxData := by
  obtain ⟨hr', -⟩ | ⟨-, u, hp, rfl⟩ := step_cases h
  · exact nomatch hr.symm.trans hr'
  · rw [State.endOp_out] at hw ⊢
    exact hp.riTxData_of_no_write hw

/-- A reset drives the outputs of R172. -/
theorem step_out_of_reset (h : step s = .next t) (hr : s.sample.inp.rst = true) : t.out = Outputs.reset := by
  rw [step_of_reset hr] at h
  cases h
  rfl

/-- What a step writes is driven and joins `WIRE` (R34, R35). -/
theorem step_wireTrace_of_write (h : step s = .next t) (hr : s.sample.inp.rst = false) (hw : t.out.riTxWr = true) :
    ∃ d, t.out.riTxData = some d ∧ t.wireTrace = s.wireTrace ++ [d] := by
  obtain ⟨-, -, hdata⟩ := dataRegisterAccessedExactlyByEvents s t h hr
  obtain ⟨-, -, hwire, -⟩ := (tracesRecordTheOutputs s t h).2 hr
  obtain ⟨d, hd, -⟩ := hdata hw
  exact ⟨d, hd, by simpa [hw, hd] using hwire⟩

end

/-- Settles O59: a reset drives 0 and writes nothing; in every other step the port is held, or it shows what is written. -/
theorem transmitDataPortHolds : Obligations.TransmitDataPortHolds := by
  intro s t h
  refine ⟨fun hr => ?_, fun hr hw hs => ?_, fun hr hw hs => ?_, fun hw => ?_⟩
  · rw [step_out_of_reset h hr]
    rfl
  · rw [step_riTxData_of_no_write h hr hw, Outputs.heldTxData_of_no_write hs]
  · rw [step_riTxData_of_no_write h hr hw, Outputs.heldTxData_of_write hs]
  · cases hr : s.sample.inp.rst with
    | true => simp [step_out_of_reset h hr, Outputs.reset] at hw
    | false => exact step_wireTrace_of_write h hr hw

/-! ## Right after a reset, and in the idle steps that follow -/

/-- Settles O48: the edge has one outcome, and no entry of its log is in a trace. -/
theorem resetFromAnyState : Obligations.ResetFromAnyState := fun s hr =>
  have h := step_of_reset hr
  ⟨_, h, rfl, fun _ => rfl, fun _ => rfl, fun _ => rfl, rfl, (tracesRecordTheOutputs s _ h).1 hr⟩

/-- The driven configuration is a function of the registers (R35). -/
theorem State.riCfg_congr {s t : State} (h : t.regs = s.regs) : t.riCfg = s.riCfg := by
  simp only [State.regs, Regs.mk.injEq] at h
  simp [State.riCfg, State.effectiveDreLvl, h]

/-- Before `INIT` a step with no command presented is idle (R171). -/
theorem step_of_not_inited_of_no_command {s : State} (hi : s.inited = false) (hr : s.sample.inp.rst = false)
    (hv : s.sample.inp.cmd.valid = false) : step s = .next (s.sample.beginOp .idle) := by
  have hp : s.sample.handlerPending = false := State.handlerPending_of_not_inited hi
  obtain ⟨hrxc, hdre⟩ := Bool.or_eq_false_iff.mp hp
  exact step_of_idle hr (State.arbitrate_of_none (by simp [hrxc]) (by simp [hdre]) hv)

/-- Settles O49: the values are those of `resetWith`, and an idle step leaves the registers and drives them again. -/
theorem resetValuesAndOutputs : Obligations.ResetValuesAndOutputs := by
  intro p
  refine ⟨rfl, rfl, rfl, rfl, fun _ => State.handlerPending_of_not_inited rfl, fun s hregs hout hr hv => ?_⟩
  have hi : s.inited = false := congrArg Regs.inited hregs
  have hidle : Outputs.begin .idle s.out = Outputs.reset := by rw [hout, Outputs.begin_idle_reset]
  exact ⟨_, step_of_not_inited_of_no_command hi hr hv, rfl, hidle, State.riCfg_congr hregs, congrArg Regs.fcPaused hregs⟩

end Sys2Proof.Machine
